-- ==== Sys2Proof/Word.lean ====
section
/-!
DEFINITION. The word types of EDE (spec/00_scope.md R8, R9): a byte, the pixel-clock count, the operands of the two
packers, the out-of-range vector and the 18-byte descriptor. Port values and exact intermediate results stay natural
numbers (R8: "Arithmetic in a rule is exact on ℕ and never wraps unless the rule applies `mod` itself").
-/

namespace Sys2Proof

/-- One output lane, or one byte of a transaction word (R8). -/
abbrev Byte := BitVec 8

/-- The pixel-clock count `q`, 16 bits (R100). -/
abbrev Count := BitVec 16

/-- An operand of NIBPACK, 4 bits (R140). -/
abbrev Nibble := BitVec 4

/-- An operand of PAIRPACK, 2 bits (R142). -/
abbrev Pair := BitVec 2

/-- The out-of-range report `oor[13:0]`, bit i for the field of index i (R200). -/
abbrev OorVec := BitVec 14

/-- The Detailed Timing Descriptor: exactly 18 bytes, lane 0 first (R181, R41). -/
abbrev Descriptor := Vector Byte 18

end Sys2Proof
end

