-- ==== Sys2Proof/Config.lean ====
section
/-!
DEFINITION. The elaboration-time parameters of EDE as one configuration record (spec/00_scope.md R6, spec/10_state.md R23),
with the defaults of R6, and the fixed constants of the source.
-/

namespace Sys2Proof

/-- The configuration record of R6; the defaults are R6's "default" column. -/
structure Config where
  /-- PCLK_IN_W: width in bits of the `pixel_clock_hz` input port. -/
  pclkInW : Nat := 32
  /-- P_IN_W: width in bits of each of the other 13 input ports. -/
  pInW : Nat := 16
  /-- GENERALIZE_FLAGS: byte 17 comes from `sync_flags` (true) or is FLAGS_CONST (false). -/
  generalizeFlags : Bool := false
  /-- VALIDATE: the `oor[13:0]` output exists. -/
  validate : Bool := false
  /-- WRAPPER: the registered transaction wrapper surrounds the core. -/
  wrapper : Bool := false
  deriving DecidableEq, Repr

/-- The configuration with every parameter at its default (R6). -/
def Config.default : Config := {}

/-- FLAGS_CONST, "0x1A only" (R6). -/
def flagsConst : Byte := 0x1A

/-- The width of the widest value a datapath net carries: the wider of the two port widths. It bounds the value operand of
MASK and SLICE in a transaction word (DESIGN CHOICE, notes/assumptions/2.md). -/
def Config.netW (c : Config) : Nat := max c.pclkInW c.pInW

end Sys2Proof
end

