-- ==== Sys2Proof/Syntax.lean ====
section
/-!
DEFINITION. The syntax of EDE: the 14 input fields (spec/00_scope.md R11, spec/10_state.md R24), the TimingParameters
record, and the operations, one constructor per row of spec/opcode_table.json (spec/30_encoding.md R61).
-/

namespace Sys2Proof

/-- The 14 fields of TimingParameters, in index order 0 to 13 (R11, R24). -/
inductive Field where
  | pixelClockHz
  | horzAddrPx
  | horzBlankPx
  | vertAddrLines
  | vertBlankLines
  | horzFrontPorchPx
  | horzSyncPulsePx
  | vertFrontPorchLines
  | vertSyncPulseLines
  | horzImageMm
  | vertImageMm
  | horzBorderPx
  | vertBorderLines
  | syncFlags
  deriving DecidableEq, Repr

/-- The input record: 14 named naturals (R60, R24). The default of a field that is not written is the notation of R70: 0,
and 0x1A for `sync_flags`. A negative value cannot be written (R8; I2). -/
structure TimingParameters where
  pixelClockHz : Nat := 0
  horzAddrPx : Nat := 0
  horzBlankPx : Nat := 0
  vertAddrLines : Nat := 0
  vertBlankLines : Nat := 0
  horzFrontPorchPx : Nat := 0
  horzSyncPulsePx : Nat := 0
  vertFrontPorchLines : Nat := 0
  vertSyncPulseLines : Nat := 0
  horzImageMm : Nat := 0
  vertImageMm : Nat := 0
  horzBorderPx : Nat := 0
  vertBorderLines : Nat := 0
  syncFlags : Nat := 0x1A
  deriving DecidableEq, Repr

/-- The widths MASK_W is instantiated at: W ∈ {6, 8, 10, 12, 16} (R120). -/
inductive MaskWidth where
  | w6
  | w8
  | w10
  | w12
  | w16
  deriving DecidableEq, Repr

/-- The operations of EDE, one constructor per row of spec/opcode_table.json in the table's order (R61). An operation whose
operands are input fields reads them from the input ports (R24); an operation whose operands are values inside the datapath
carries them. -/
inductive Instr where
  /-- ENCODE: the whole transaction, on the record at the input ports (R180). -/
  | encode
  /-- PCQ: the pixel-clock quantizer, on the `pixel_clock_hz` port (R100). -/
  | pcq
  /-- MASK: keep the low W bits of v (R120). -/
  | mask (w : MaskWidth) (v : Nat)
  /-- SLICE: bits hi:lo of v (R121). -/
  | slice (v hi lo : Nat)
  /-- NIBPACK: two 4-bit groups into one byte (R140). -/
  | nibpack (h l : Nibble)
  /-- PAIRPACK: four 2-bit groups into one byte (R142). -/
  | pairpack (a b c d : Pair)
  | lane0
  | lane1
  | lane2
  | lane3
  | lane4
  | lane5
  | lane6
  | lane7
  | lane8
  | lane9
  | lane10
  | lane11
  | lane12
  | lane13
  | lane14
  | lane15
  | lane16
  /-- LANE17: the flags byte (R177); the table's row for GENERALIZE_FLAGS = 0. -/
  | lane17
  /-- LANE17_GEN: the flags byte (R177); the table's row for GENERALIZE_FLAGS = 1. -/
  | lane17Gen
  /-- VALIDATE: the out-of-range report on the record at the input ports (R201). -/
  | validate
  deriving DecidableEq, Repr

end Sys2Proof
end

