-- ==== Sys2Proof/WellFormed.lean ====
section
/-!
DEFINITION. The checks on a configuration (spec/00_scope.md R6, "legal values"), on a record (spec/10_state.md R24: a port of
width N carries exactly 0 .. 2^N − 1; spec/93 I1: anything else is refused) and on an operation's operands (spec/41 R121).
Each is an abbreviation of a decidable proposition.
-/

namespace Sys2Proof

/-- The legal values of R6: PCLK_IN_W ≥ 30 and P_IN_W ≥ 12. -/
abbrev Config.legal (c : Config) : Prop := 30 ≤ c.pclkInW ∧ 12 ≤ c.pInW

/-- Every field is a value its input port can carry (R24, I1). -/
abbrev TimingParameters.fits (P : TimingParameters) (c : Config) : Prop :=
  P.pixelClockHz < 2 ^ c.pclkInW ∧ P.horzAddrPx < 2 ^ c.pInW ∧ P.horzBlankPx < 2 ^ c.pInW ∧
  P.vertAddrLines < 2 ^ c.pInW ∧ P.vertBlankLines < 2 ^ c.pInW ∧ P.horzFrontPorchPx < 2 ^ c.pInW ∧
  P.horzSyncPulsePx < 2 ^ c.pInW ∧ P.vertFrontPorchLines < 2 ^ c.pInW ∧ P.vertSyncPulseLines < 2 ^ c.pInW ∧
  P.horzImageMm < 2 ^ c.pInW ∧ P.vertImageMm < 2 ^ c.pInW ∧ P.horzBorderPx < 2 ^ c.pInW ∧
  P.vertBorderLines < 2 ^ c.pInW ∧ P.syncFlags < 2 ^ c.pInW

/-- The operands of an operation are well formed: SLICE has hi ≥ lo (R121) and bit numbers a byte can hold, and the value
operand of MASK and SLICE is one a datapath net can carry (notes/assumptions/2.md). -/
abbrev Instr.wf (i : Instr) (c : Config) : Prop :=
  match i with
  | .mask _ v => v < 2 ^ c.netW
  | .slice v hi lo => lo ≤ hi ∧ hi < 256 ∧ v < 2 ^ c.netW
  | .encode | .pcq | .nibpack _ _ | .pairpack _ _ _ _ => True
  | .lane0 | .lane1 | .lane2 | .lane3 | .lane4 | .lane5 | .lane6 | .lane7 | .lane8 => True
  | .lane9 | .lane10 | .lane11 | .lane12 | .lane13 | .lane14 | .lane15 | .lane16 => True
  | .lane17 | .lane17Gen | .validate => True

end Sys2Proof
end

