-- ==== Sys2Proof/Machine/Operands.lean ====
section
/-!
DEFINITION. The operand forms of EDE (spec/41_field_slicer.md, spec/40_pixel_clock_quantizer.md): MASK and SLICE on naturals,
the slices the datapath takes (R125), the quotient and count of the pixel clock (R100), and the reading of one input port.
-/

namespace Sys2Proof.Machine

/-- `MASK_W(v) = v mod 2^W` (R120). -/
def mask (w v : Nat) : Nat := v % 2 ^ w

/-- `SLICE(v, hi, lo) = (v div 2^lo) mod 2^(hi-lo+1)`, for hi ≥ lo (R121, R9). -/
def slice (v hi lo : Nat) : Nat := v / 2 ^ lo % 2 ^ (hi - lo + 1)

/-- "low 8 bits of X": `SLICE(X, 7, 0)` (R121). -/
def low8 (v : Nat) : Byte := BitVec.ofNat 8 (slice v 7 0)

/-- Bits 15:8 of q: `SLICE(q, 15, 8)` (R126). -/
def high8 (v : Nat) : Byte := BitVec.ofNat 8 (slice v 15 8)

/-- "bits 8–11 of X": `SLICE(X, 11, 8)` (R127). -/
def high4 (v : Nat) : Nibble := BitVec.ofNat 4 (slice v 11 8)

/-- "X low 4 bits": `SLICE(X, 3, 0)` (R130). -/
def low4 (v : Nat) : Nibble := BitVec.ofNat 4 (slice v 3 0)

/-- "X bits 8–9": `SLICE(X, 9, 8)` (R128). -/
def bits9to8 (v : Nat) : Pair := BitVec.ofNat 2 (slice v 9 8)

/-- "X bits 4–5": `SLICE(X, 5, 4)` (R130). -/
def bits5to4 (v : Nat) : Pair := BitVec.ofNat 2 (slice v 5 4)

/-- The rounded, unmasked quotient `Q = (pixel_clock_hz + 5000) div 10000` (R100): exact, it never wraps (R103). -/
def quotient (hz : Nat) : Nat := (hz + 5000) / 10000

/-- The count `q = MASK_16(Q)` (R100, R126). -/
def pcqCount (hz : Nat) : Count := BitVec.ofNat 16 (mask 16 (quotient hz))

/-- W of the table of R125 (R7); for the pixel clock it is the width of Q. -/
def fieldWidth (f : Field) : Nat :=
  match f with
  | .pixelClockHz => 16
  | .horzAddrPx | .horzBlankPx | .vertAddrLines | .vertBlankLines => 12
  | .horzFrontPorchPx | .horzSyncPulsePx => 10
  | .vertFrontPorchLines | .vertSyncPulseLines => 6
  | .horzImageMm | .vertImageMm => 12
  | .horzBorderPx | .vertBorderLines => 8
  | .syncFlags => 8

/-- The value on the input port of a field (R24). -/
def portValue (P : TimingParameters) (f : Field) : Nat :=
  match f with
  | .pixelClockHz => P.pixelClockHz
  | .horzAddrPx => P.horzAddrPx
  | .horzBlankPx => P.horzBlankPx
  | .vertAddrLines => P.vertAddrLines
  | .vertBlankLines => P.vertBlankLines
  | .horzFrontPorchPx => P.horzFrontPorchPx
  | .horzSyncPulsePx => P.horzSyncPulsePx
  | .vertFrontPorchLines => P.vertFrontPorchLines
  | .vertSyncPulseLines => P.vertSyncPulseLines
  | .horzImageMm => P.horzImageMm
  | .vertImageMm => P.vertImageMm
  | .horzBorderPx => P.horzBorderPx
  | .vertBorderLines => P.vertBorderLines
  | .syncFlags => P.syncFlags

/-- The record with another value on one input port. -/
def setPort (P : TimingParameters) (f : Field) (v : Nat) : TimingParameters :=
  match f with
  | .pixelClockHz => { P with pixelClockHz := v }
  | .horzAddrPx => { P with horzAddrPx := v }
  | .horzBlankPx => { P with horzBlankPx := v }
  | .vertAddrLines => { P with vertAddrLines := v }
  | .vertBlankLines => { P with vertBlankLines := v }
  | .horzFrontPorchPx => { P with horzFrontPorchPx := v }
  | .horzSyncPulsePx => { P with horzSyncPulsePx := v }
  | .vertFrontPorchLines => { P with vertFrontPorchLines := v }
  | .vertSyncPulseLines => { P with vertSyncPulseLines := v }
  | .horzImageMm => { P with horzImageMm := v }
  | .vertImageMm => { P with vertImageMm := v }
  | .horzBorderPx => { P with horzBorderPx := v }
  | .vertBorderLines => { P with vertBorderLines := v }
  | .syncFlags => { P with syncFlags := v }

/-- The width W as a number (R120). -/
def widthOf (w : MaskWidth) : Nat :=
  match w with
  | .w6 => 6
  | .w8 => 8
  | .w10 => 10
  | .w12 => 12
  | .w16 => 16

end Sys2Proof.Machine
end

