-- ==== Sys2Proof/Decode.lean ====
section
/-!
DEFINITION. Transaction words, their decoder and their encoder, and the patterns of spec/opcode_table.json.

The spec gives the input port bundle as a transaction's encoding (spec/95 section 7: the 14 port values in index order) and
gives operations no opcode: "An operation is selected by its position in the fixed datapath" (R61). A transaction word here
is the position (the row's index in spec/opcode_table.json), the value operands if the operation has any, and the port
bundle, each number least significant byte first (DESIGN CHOICE, notes/assumptions/2.md).
-/

namespace Sys2Proof

/-- Why a transaction word is refused. Every reason is raised by `decode`; each is safe: the hardware has no such word. -/
inductive DecodeError where
  /-- No byte at all: no operation is selected. -/
  | emptyWord
  /-- The position byte names no row of the operation map (R61). -/
  | unknownPosition
  /-- The word ends before its operands or its port bundle do. -/
  | truncated
  /-- Bytes follow the port bundle. -/
  | trailing
  /-- The width byte of MASK is not in {6, 8, 10, 12, 16} (R120). -/
  | maskWidth
  /-- SLICE with hi < lo (R121). -/
  | sliceOrder
  /-- A value that a port (R24, I1) or a datapath net of its width cannot carry. -/
  | portRange
  deriving DecidableEq, Repr

/-- How many bytes hold a value of `w` bits. -/
def byteCount (w : Nat) : Nat := (w + 7) / 8

/-- Read `n` bytes as a number, least significant byte first. -/
def takeLE : Nat → List Byte → Option (Nat × List Byte)
  | 0, bs => some (0, bs)
  | _ + 1, [] => none
  | n + 1, b :: bs =>
    match takeLE n bs with
    | none => none
    | some (v, rest) => some (b.toNat + 256 * v, rest)

/-- Write a number in `n` bytes, least significant byte first. -/
def putLE : Nat → Nat → List Byte
  | 0, _ => []
  | n + 1, v => BitVec.ofNat 8 v :: putLE n (v / 256)

/-- Read a value of `w` bits; a value of more bits is refused (R24, I1). -/
def takeBits (w : Nat) (bs : List Byte) : Except DecodeError (Nat × List Byte) :=
  match takeLE (byteCount w) bs with
  | none => .error .truncated
  | some (v, rest) => if v < 2 ^ w then .ok (v, rest) else .error .portRange

/-- Write a value of `w` bits. -/
def putBits (w v : Nat) : List Byte := putLE (byteCount w) v

/-- The widths of the 14 input ports in index order (R24). -/
def portWidths (c : Config) : List Nat := c.pclkInW :: List.replicate 13 c.pInW

/-- The input port bundle: the 14 port values in index order (R24; spec/95 section 7). -/
def toPorts (P : TimingParameters) : List Nat :=
  [P.pixelClockHz, P.horzAddrPx, P.horzBlankPx, P.vertAddrLines, P.vertBlankLines, P.horzFrontPorchPx, P.horzSyncPulsePx,
    P.vertFrontPorchLines, P.vertSyncPulseLines, P.horzImageMm, P.vertImageMm, P.horzBorderPx, P.vertBorderLines, P.syncFlags]

/-- The record a port bundle carries: 14 values in index order. -/
def ofPorts (vs : List Nat) : Option TimingParameters :=
  match vs with
  | [v0, v1, v2, v3, v4, v5, v6, v7, v8, v9, v10, v11, v12, v13] =>
    some ⟨v0, v1, v2, v3, v4, v5, v6, v7, v8, v9, v10, v11, v12, v13⟩
  | _ => none

/-- Read one value for each port width. -/
def takePorts : List Nat → List Byte → Except DecodeError (List Nat × List Byte)
  | [], bs => .ok ([], bs)
  | w :: ws, bs =>
    match takeBits w bs with
    | .error e => .error e
    | .ok (v, rest) =>
      match takePorts ws rest with
      | .error e => .error e
      | .ok (vs, rest') => .ok (v :: vs, rest')

/-- Write one value for each port width. -/
def putPorts : List Nat → List Nat → List Byte
  | w :: ws, v :: vs => putBits w v ++ putPorts ws vs
  | _, _ => []

/-- The record of a port bundle and the bytes after it. -/
def decodeBundle (c : Config) (bs : List Byte) : Except DecodeError (TimingParameters × List Byte) :=
  match takePorts (portWidths c) bs with
  | .error e => .error e
  | .ok (vs, rest) =>
    match ofPorts vs with
    | none => .error .truncated
    | some P => .ok (P, rest)

/-- The bytes of the port bundle that carries a record. -/
def encodeBundle (c : Config) (P : TimingParameters) : List Byte := putPorts (portWidths c) (toPorts P)

/-- W from its byte; any other width is no width of the datapath (R120). -/
def maskWidthOf (n : Nat) : Option MaskWidth :=
  match n with
  | 6 => some .w6
  | 8 => some .w8
  | 10 => some .w10
  | 12 => some .w12
  | 16 => some .w16
  | _ => none

/-- The operands of MASK: W, then v. -/
def decodeMask (c : Config) (bs : List Byte) : Except DecodeError (Instr × List Byte) :=
  match bs with
  | [] => .error .truncated
  | w :: bs =>
    match maskWidthOf w.toNat with
    | none => .error .maskWidth
    | some mw =>
      match takeBits c.netW bs with
      | .error e => .error e
      | .ok (v, rest) => .ok (.mask mw v, rest)

/-- The operands of SLICE: hi, lo, then v (R121: hi ≥ lo). -/
def decodeSlice (c : Config) (bs : List Byte) : Except DecodeError (Instr × List Byte) :=
  match bs with
  | hi :: lo :: bs =>
    if lo.toNat ≤ hi.toNat then
      match takeBits c.netW bs with
      | .error e => .error e
      | .ok (v, rest) => .ok (.slice v hi.toNat lo.toNat, rest)
    else .error .sliceOrder
  | _ => .error .truncated

/-- The operands of NIBPACK in the pattern `hhhhllll` of its row (R140). -/
def decodeNibpack (bs : List Byte) : Except DecodeError (Instr × List Byte) :=
  match bs with
  | [] => .error .truncated
  | b :: rest => .ok (.nibpack (b.extractLsb' 4 4) (b.extractLsb' 0 4), rest)

/-- The operands of PAIRPACK in the pattern `aabbccdd` of its row (R142). -/
def decodePairpack (bs : List Byte) : Except DecodeError (Instr × List Byte) :=
  match bs with
  | [] => .error .truncated
  | b :: rest =>
    .ok (.pairpack (b.extractLsb' 6 2) (b.extractLsb' 4 2) (b.extractLsb' 2 2) (b.extractLsb' 0 2), rest)

/-- The operation at a position: the rows of spec/opcode_table.json counted from 0 (R61). -/
def decodeAt (c : Config) (position : Nat) (bs : List Byte) : Except DecodeError (Instr × List Byte) :=
  match position with
  | 0 => .ok (.encode, bs)
  | 1 => .ok (.pcq, bs)
  | 2 => decodeMask c bs
  | 3 => decodeSlice c bs
  | 4 => decodeNibpack bs
  | 5 => decodePairpack bs
  | 6 => .ok (.lane0, bs)
  | 7 => .ok (.lane1, bs)
  | 8 => .ok (.lane2, bs)
  | 9 => .ok (.lane3, bs)
  | 10 => .ok (.lane4, bs)
  | 11 => .ok (.lane5, bs)
  | 12 => .ok (.lane6, bs)
  | 13 => .ok (.lane7, bs)
  | 14 => .ok (.lane8, bs)
  | 15 => .ok (.lane9, bs)
  | 16 => .ok (.lane10, bs)
  | 17 => .ok (.lane11, bs)
  | 18 => .ok (.lane12, bs)
  | 19 => .ok (.lane13, bs)
  | 20 => .ok (.lane14, bs)
  | 21 => .ok (.lane15, bs)
  | 22 => .ok (.lane16, bs)
  | 23 => .ok (.lane17, bs)
  | 24 => .ok (.lane17Gen, bs)
  | 25 => .ok (.validate, bs)
  | _ => .error .unknownPosition

/-- The operation a transaction word selects, with its value operands, and the bytes after them. -/
def decodeOp (c : Config) (bs : List Byte) : Except DecodeError (Instr × List Byte) :=
  match bs with
  | [] => .error .emptyWord
  | p :: rest => decodeAt c p.toNat rest

/-- The decoder: a transaction word is an operation and the record its port bundle carries, and nothing more. -/
def decode (c : Config) (bs : List Byte) : Except DecodeError (Instr × TimingParameters) :=
  match decodeOp c bs with
  | .error e => .error e
  | .ok (i, rest) =>
    match decodeBundle c rest with
    | .error e => .error e
    | .ok (P, rest') => if rest' = [] then .ok (i, P) else .error .trailing

/-- The position of an operation: its row in spec/opcode_table.json, counted from 0. -/
def position (i : Instr) : Nat :=
  match i with
  | .encode => 0
  | .pcq => 1
  | .mask _ _ => 2
  | .slice _ _ _ => 3
  | .nibpack _ _ => 4
  | .pairpack _ _ _ _ => 5
  | .lane0 => 6
  | .lane1 => 7
  | .lane2 => 8
  | .lane3 => 9
  | .lane4 => 10
  | .lane5 => 11
  | .lane6 => 12
  | .lane7 => 13
  | .lane8 => 14
  | .lane9 => 15
  | .lane10 => 16
  | .lane11 => 17
  | .lane12 => 18
  | .lane13 => 19
  | .lane14 => 20
  | .lane15 => 21
  | .lane16 => 22
  | .lane17 => 23
  | .lane17Gen => 24
  | .validate => 25

/-- The bytes of an operation's value operands; none for an operation that reads the input ports only. -/
def encodeOperands (c : Config) (i : Instr) : List Byte :=
  match i with
  | .mask w v => BitVec.ofNat 8 (Machine.widthOf w) :: putBits c.netW v
  | .slice v hi lo => BitVec.ofNat 8 hi :: BitVec.ofNat 8 lo :: putBits c.netW v
  | .nibpack h l => [h ++ l]
  | .pairpack a b e d => [a ++ b ++ e ++ d]
  | .encode | .pcq => []
  | .lane0 | .lane1 | .lane2 | .lane3 | .lane4 | .lane5 | .lane6 | .lane7 | .lane8 => []
  | .lane9 | .lane10 | .lane11 | .lane12 | .lane13 | .lane14 | .lane15 | .lane16 => []
  | .lane17 | .lane17Gen | .validate => []

/-- The bytes that select an operation: its position and its value operands. -/
def encodeOp (c : Config) (i : Instr) : List Byte := BitVec.ofNat 8 (position i) :: encodeOperands c i

/-- The encoder: the transaction word of an operation on a record. -/
def encode (c : Config) (i : Instr) (P : TimingParameters) : List Byte := encodeOp c i ++ encodeBundle c P

/-- `q = {b[1], b[0]}`, the count of UNPACK (R66). -/
def unpackCount (d : Descriptor) : Count := d[1] ++ d[0]

/-- UNPACK (R66), the derived inverse: the masked fields of a descriptor, in the record R67 builds from them, with
`pixel_clock_hz = 10000·q`. EDE itself has no decoder. -/
def unpack (d : Descriptor) : TimingParameters where
  pixelClockHz := 10000 * (unpackCount d).toNat
  horzAddrPx := (d[4].extractLsb' 4 4 ++ d[2]).toNat
  horzBlankPx := (d[4].extractLsb' 0 4 ++ d[3]).toNat
  vertAddrLines := (d[7].extractLsb' 4 4 ++ d[5]).toNat
  vertBlankLines := (d[7].extractLsb' 0 4 ++ d[6]).toNat
  horzFrontPorchPx := (d[11].extractLsb' 6 2 ++ d[8]).toNat
  horzSyncPulsePx := (d[11].extractLsb' 4 2 ++ d[9]).toNat
  vertFrontPorchLines := (d[11].extractLsb' 2 2 ++ d[10].extractLsb' 4 4).toNat
  vertSyncPulseLines := (d[11].extractLsb' 0 2 ++ d[10].extractLsb' 0 4).toNat
  horzImageMm := (d[14].extractLsb' 4 4 ++ d[12]).toNat
  vertImageMm := (d[14].extractLsb' 0 4 ++ d[13]).toNat
  horzBorderPx := d[15].toNat
  vertBorderLines := d[16].toNat
  syncFlags := d[17].toNat

/-- The descriptor whose packed vector `dtd[143:0]` is `w`: lane k at `dtd[8k+7:8k]` (R41). -/
def descriptorOf (w : Nat) : Descriptor := Vector.ofFn fun k => BitVec.ofNat 8 (w / 2 ^ (8 * k.val))

/-- The transaction word that a pattern of spec/opcode_table.json stands for. The table gives each operation the bits it
PRODUCES, not an opcode (R61), so a word determines its row only where the row's length and constant bits do: ENCODE's 144
bits with 0x1A in lane 17, PCQ's 16 bits, and LANE17's 8 constant bits. The record is one on which the operation produces
the word (R67). Any other 8-bit word is a pattern of many rows and determines none: it is no word, and decode refuses it
(notes/assumptions/3.md). -/
def tableWord (c : Config) (nbits w : Nat) : List Byte :=
  if nbits = 144 ∧ w < 2 ^ 144 ∧ (descriptorOf w)[17] = flagsConst then encode c .encode (unpack (descriptorOf w))
  else if nbits = 16 ∧ w < 2 ^ 16 then encode c .pcq { pixelClockHz := 10000 * w }
  else if nbits = 8 ∧ w = flagsConst.toNat then encode c .lane17 {}
  else []

/-- The operation the decoder reads from a table pattern's bits, under the default configuration. -/
def decodeTableWord (nbits w : Nat) : Option Instr :=
  match decode Config.default (tableWord Config.default nbits w) with
  | .ok (i, _) => some i
  | .error _ => none

end Sys2Proof
end

