-- ==== Sys2Proof/Machine/State.lean ====
section
/-!
DEFINITION. The state of EDE, its faults and refusals, the state right after reset and the state at power-up.

The combinational core "holds no architectural state" (spec/10_state.md R20): what stands here for it is the record at its
input ports and the value each of its outputs has settled to. The wrapper's registers are those of R28, typed as R31 types
them. The configuration of R6 is a field no step changes, since `exec` takes nothing but a state (notes/assumptions/1.md).
-/

namespace Sys2Proof.Machine

/-- The faults. -/
inductive Fault where
  /-- LENGTH_FAULT (R220): the produced descriptor does not have exactly 18 bytes. Raised by ENCODE's final check alone, and
  unreachable (R221). Safe. -/
  | lengthFault
  /-- A consumer read a wrapper output before the first reset edge (R253, I4). Raised by the output reads, never by a step.
  Safe: no value is given. -/
  | readBeforeReset
  /-- A consumer read `dtd` or `oor` of the wrapper while `out_valid` = 0 (R30, I3). Raised by the output reads, never by a
  step. Safe: no value is given. -/
  | readInvalid
  /-- A consumer read a combinational output that has not settled to the current inputs (R256, I6). Raised by the output
  reads, never by a step. Safe: no value is given. -/
  | readUnsettled
  /-- A consumer read a port this configuration does not have: `oor` where VALIDATE = 0 (R200), `out_valid` where WRAPPER = 0
  (R27). Raised by the output reads, never by a step. Safe: no value is given. -/
  | portAbsent
  deriving DecidableEq, Repr

/-- The refusals. -/
inductive Refusal where
  /-- An operation without a meaning in this model; raised by `exec` for none. Safe. -/
  | notModelled (mnemonic : String)
  /-- SLICE with hi < lo: R121 takes "hi ≥ lo". Raised by SLICE. Safe: the datapath has no such slice. -/
  | sliceOrder
  /-- The stimulus is no transaction word of this configuration: it selects no operation, or carries a value a port cannot
  (R24, I1). Raised by a step. Safe: the hardware's ports carry no such stimulus. -/
  | undecodable (reason : DecodeError)
  deriving DecidableEq, Repr

/-- A result inside the datapath: its width in bits and its value (R120: "Result: W bits"; R121). -/
structure Net where
  width : Nat
  value : Nat
  deriving DecidableEq, Repr

/-- What the environment presents for one transaction or clock edge: the wrapper's pins (R27) and a transaction word. -/
structure Beat where
  rst : Bool
  inValid : Bool
  word : List Byte
  deriving DecidableEq, Repr

/-- The state: plain data. -/
structure State where
  /-- The elaboration-time configuration (R6, R23). -/
  cfg : Config
  /-- The record at the input ports (R24). -/
  ports : TimingParameters
  /-- The core's output lanes `out.b[k]` (R25); `none` while a lane has not settled (R256). -/
  lanes : Vector (Option Byte) 18
  /-- The core's `oor` output (R25); `none` while it has not settled or where VALIDATE = 0 (R200). -/
  oor : Option OorVec
  /-- The quantizer's result `q` (R100). -/
  qNet : Option Count
  /-- The result of MASK (R120). -/
  maskNet : Option Net
  /-- The result of SLICE (R121). -/
  sliceNet : Option Net
  /-- The result of NIBPACK (R140). -/
  nibNet : Option Byte
  /-- The result of PAIRPACK (R142). -/
  pairNet : Option Byte
  /-- The wrapper register `out_valid_q` (R28); `none` before the first reset edge (R253). -/
  outValidQ : Option Bool
  /-- The wrapper register `dtd_q` (R28, R31). -/
  dtdQ : Option Descriptor
  /-- The wrapper register `oor_q` (R28, R31). -/
  oorQ : Option OorVec
  /-- A reset edge has been taken, so that observations are admitted (R253, I4). -/
  resetSeen : Bool
  /-- What the environment will present, next first. -/
  inputs : List Beat
  deriving DecidableEq, Repr

/-- The state right after reset under a configuration (R32, R251): `out_valid_q` is 0, `dtd_q` and `oor_q` hold no value, and
no output of the core has settled. The record at the ports is all zero (DESIGN CHOICE, notes/assumptions/4.md). -/
def State.resetWith (c : Config) : State where
  cfg := c
  ports := { syncFlags := 0 }
  lanes := Vector.replicate 18 none
  oor := none
  qNet := none
  maskNet := none
  sliceNet := none
  nibNet := none
  pairNet := none
  outValidQ := some false
  dtdQ := none
  oorQ := none
  resetSeen := true
  inputs := []

/-- The state right after reset, under the default configuration of R6. -/
def State.reset : State := State.resetWith Config.default

/-- Power-up without reset (R253): no value for any register, and no observation admitted. -/
def State.powerUp (c : Config) : State := { State.resetWith c with outValidQ := none, resetSeen := false }

end Sys2Proof.Machine
end

