-- ==== Sys2Proof/Machine/Ops.lean ====
section
/-!
DEFINITION. The named operations over the state: driving the core's outputs, presenting a record at the input ports
(spec/70 R256), the final length check that raises LENGTH_FAULT (spec/60 R220, R221) — the one exception of EDE, which has no
trap, no saved state, no handler and no return (R225, R226) —, the packed form of the descriptor (spec/20 R41) and the reads
of the outputs (spec/10 R25, R28, R30).
-/

namespace Sys2Proof.Machine

/-- `out.b[k] <- v` (R10). -/
def State.setLane (s : State) (k : Nat) (v : Byte) (h : k < 18 := by decide) : State :=
  { s with lanes := s.lanes.set k (some v) h }

/-- All 18 lanes settle to one descriptor (R47). -/
def State.setLanes (s : State) (d : Descriptor) : State := { s with lanes := Vector.ofFn fun k => some d[k] }

/-- The `oor` output settles; it does not exist where VALIDATE = 0 (R200). -/
def State.setOor (s : State) (v : OorVec) : State := { s with oor := if s.cfg.validate then some v else none }

def State.setQ (s : State) (q : Count) : State := { s with qNet := some q }

def State.setMask (s : State) (n : Net) : State := { s with maskNet := some n }

def State.setSlice (s : State) (n : Net) : State := { s with sliceNet := some n }

def State.setNib (s : State) (b : Byte) : State := { s with nibNet := some b }

def State.setPair (s : State) (b : Byte) : State := { s with pairNet := some b }

/-- The beats still to come. -/
def State.withInputs (s : State) (bs : List Beat) : State := { s with inputs := bs }

/-- A record is presented at the input ports. Where it changes an input, no output that depends on the inputs has a value
until it is evaluated again (R256). -/
def State.present (s : State) (P : TimingParameters) : State :=
  if P = s.ports then s
  else { s with ports := P, lanes := Vector.replicate 18 none, oor := none, qNet := none }

/-- The final length check of ENCODE (R220, R222): "descriptor length ≠ 18" is LENGTH_FAULT. -/
def checkLength (bs : List Byte) : Except Fault Descriptor :=
  if h : bs.length = 18 then .ok ⟨bs.toArray, by simpa using h⟩ else .error .lengthFault

/-- The number a byte sequence stands for, least significant byte first. -/
def numberOf : List Byte → Nat
  | [] => 0
  | b :: bs => b.toNat + 256 * numberOf bs

/-- The packed output `dtd[143:0]`, lane k at `dtd[8k+7:8k]` (R25, R41): the descriptor read as one little-endian integer. -/
def packed (d : Descriptor) : BitVec 144 := BitVec.ofNat 144 (numberOf d.toList)

/-- The core's 18 lanes, where all of them have settled. -/
def State.settled (s : State) : Option Descriptor :=
  if s.lanes.toList.all (·.isSome) then some (Vector.ofFn fun k => (s.lanes[k]).getD 0) else none

/-- `out_valid = out_valid_q` (R28). The core has no such output (R27), and before the first reset edge no observation is
admitted (R253). -/
def State.readOutValid (s : State) : Except Fault Bool :=
  if s.cfg.wrapper then
    if s.resetSeen then
      match s.outValidQ with
      | some v => .ok v
      | none => .error .readBeforeReset
    else .error .readBeforeReset
  else .error .portAbsent

/-- The value of a wrapper data register as a consumer may read it: only in a cycle where `out_valid` = 1 (R30). -/
def State.readHeld {α : Type} (s : State) (register : Option α) : Except Fault α :=
  match s.readOutValid with
  | .error f => .error f
  | .ok false => .error .readInvalid
  | .ok true =>
    match register with
    | some v => .ok v
    | none => .error .readInvalid

/-- The descriptor output: the wrapper drives `dtd = dtd_q` (R28), the core its 18 lanes (R25). -/
def State.readDtd (s : State) : Except Fault Descriptor :=
  if s.cfg.wrapper then s.readHeld s.dtdQ
  else
    match s.settled with
    | some d => .ok d
    | none => .error .readUnsettled

/-- One output lane `dtd_b<k>` (R25). -/
def State.readLane (s : State) (k : Fin 18) : Except Fault Byte :=
  if s.cfg.wrapper then
    match s.readHeld s.dtdQ with
    | .ok d => .ok d[k]
    | .error f => .error f
  else
    match s.lanes[k] with
    | some b => .ok b
    | none => .error .readUnsettled

/-- The `oor` output (R25): absent where VALIDATE = 0 (R200), `oor = oor_q` in the wrapper (R28). -/
def State.readOor (s : State) : Except Fault OorVec :=
  if s.cfg.validate then
    if s.cfg.wrapper then s.readHeld s.oorQ
    else
      match s.oor with
      | some v => .ok v
      | none => .error .readUnsettled
  else .error .portAbsent

end Sys2Proof.Machine
end

