-- ==== Sys2Proof/Machine/Flags.lean ====
section
/-!
DEFINITION. EDE has no status flag (spec/10_state.md R22). The one computation of flag-like bits is the out-of-range report
of spec/44_out_of_range_check.md R201, an output of the same transaction.
-/

namespace Sys2Proof.Machine

/-- One bit of OOR(P) (R201): the field's value does not fit its descriptor width. The pixel clock is judged on the unmasked
quotient, and `sync_flags` only where it is placed. -/
def outOfRange (c : Config) (P : TimingParameters) (f : Field) : Bool :=
  match f with
  | .pixelClockHz => decide (2 ^ 16 ≤ quotient P.pixelClockHz)
  | .syncFlags => c.generalizeFlags && decide (2 ^ 8 ≤ P.syncFlags)
  | .horzAddrPx | .horzBlankPx | .vertAddrLines | .vertBlankLines | .horzFrontPorchPx | .horzSyncPulsePx
  | .vertFrontPorchLines | .vertSyncPulseLines | .horzImageMm | .vertImageMm | .horzBorderPx | .vertBorderLines =>
    decide (2 ^ fieldWidth f ≤ portValue P f)

/-- OOR(P) (R201): bit i reports the field of index i (R200). -/
def oorOf (c : Config) (P : TimingParameters) : OorVec :=
  BitVec.ofBoolListLE
    [outOfRange c P .pixelClockHz, outOfRange c P .horzAddrPx, outOfRange c P .horzBlankPx, outOfRange c P .vertAddrLines,
      outOfRange c P .vertBlankLines, outOfRange c P .horzFrontPorchPx, outOfRange c P .horzSyncPulsePx,
      outOfRange c P .vertFrontPorchLines, outOfRange c P .vertSyncPulseLines, outOfRange c P .horzImageMm,
      outOfRange c P .vertImageMm, outOfRange c P .horzBorderPx, outOfRange c P .vertBorderLines, outOfRange c P .syncFlags]

end Sys2Proof.Machine
end

