-- ==== Sys2Proof/Machine/Checker.lean ====
section
/-!
DEFINITION. The optional out-of-range checker VALIDATE (spec/44_out_of_range_check.md).
-/

namespace Sys2Proof.Machine

/-- VALIDATE (R201): the `oor` output settles to OOR of the record at the ports. Where VALIDATE = 0 the port is absent and
nothing is observed (R200); there the operation runs and `oor` has no value (DEDUCED, notes/assumptions/9.md). -/
def execValidate (s : State) : Host.Outcome State Fault Refusal := .next (s.setOor (oorOf s.cfg s.ports))

end Sys2Proof.Machine
end

