-- ==== Sys2Proof/Machine/Quantizer.lean ====
section
/-!
DEFINITION. The pixel-clock quantizer PCQ (spec/40_pixel_clock_quantizer.md).
-/

namespace Sys2Proof.Machine

/-- `encode_pixel_clock_bytes(hz)`: the pair (lane 0, lane 1), little-endian (R101, R40). -/
def pixelClockBytes (hz : Nat) : Byte × Byte := (low8 (pcqCount hz).toNat, high8 (pcqCount hz).toNat)

/-- PCQ (R100): the count q of the pixel clock at the port, which "fills lanes 0 and 1" (R101). -/
def execPcq (s : State) : Host.Outcome State Fault Refusal :=
  .next (((s.setQ (pcqCount s.ports.pixelClockHz)).setLane 0 (pixelClockBytes s.ports.pixelClockHz).1).setLane 1
    (pixelClockBytes s.ports.pixelClockHz).2)

end Sys2Proof.Machine
end

