-- ==== Sys2Proof/Machine/Splitter.lean ====
section
/-!
DEFINITION. The nibble splitter, NIBPACK and PAIRPACK (spec/42_nibble_splitter.md).
-/

namespace Sys2Proof.Machine

/-- `NIBPACK(h, l) = (h << 4) | l` (R140). -/
def nibpack (h l : Nibble) : Byte := (h.zeroExtend 8 <<< 4) ||| l.zeroExtend 8

/-- `PAIRPACK(a, b, c, d) = (a << 6) | (b << 4) | (c << 2) | d` (R142). -/
def pairpack (a b c d : Pair) : Byte :=
  (a.zeroExtend 8 <<< 6) ||| (b.zeroExtend 8 <<< 4) ||| (c.zeroExtend 8 <<< 2) ||| d.zeroExtend 8

/-- NIBPACK (R140). -/
def execNibpack (h l : Nibble) (s : State) : Host.Outcome State Fault Refusal := .next (s.setNib (nibpack h l))

/-- PAIRPACK (R142). -/
def execPairpack (a b c d : Pair) (s : State) : Host.Outcome State Fault Refusal := .next (s.setPair (pairpack a b c d))

end Sys2Proof.Machine
end

