-- ==== Sys2Proof/Machine/Router.lean ====
section
/-!
DEFINITION. The byte-layout router (spec/43_byte_layout_router.md): the byte of each lane, LANE0 to LANE17, and ENCODE.
-/

namespace Sys2Proof.Machine

/-- Lane 0 is `SLICE(q, 7, 0)` (R160). -/
def lane0Byte (P : TimingParameters) : Byte := low8 (pcqCount P.pixelClockHz).toNat

/-- Lane 1 is `SLICE(q, 15, 8)` (R161). -/
def lane1Byte (P : TimingParameters) : Byte := high8 (pcqCount P.pixelClockHz).toNat

/-- Lane 2 is `SLICE(horz_addr_px, 7, 0)` (R162). -/
def lane2Byte (P : TimingParameters) : Byte := low8 P.horzAddrPx

/-- Lane 3 is `SLICE(horz_blank_px, 7, 0)` (R163). -/
def lane3Byte (P : TimingParameters) : Byte := low8 P.horzBlankPx

/-- Lane 4 is `NIBPACK(SLICE(horz_addr_px, 11, 8), SLICE(horz_blank_px, 11, 8))` (R164). -/
def lane4Byte (P : TimingParameters) : Byte := nibpack (high4 P.horzAddrPx) (high4 P.horzBlankPx)

/-- Lane 5 is `SLICE(vert_addr_lines, 7, 0)` (R165). -/
def lane5Byte (P : TimingParameters) : Byte := low8 P.vertAddrLines

/-- Lane 6 is `SLICE(vert_blank_lines, 7, 0)` (R166). -/
def lane6Byte (P : TimingParameters) : Byte := low8 P.vertBlankLines

/-- Lane 7 is `NIBPACK(SLICE(vert_addr_lines, 11, 8), SLICE(vert_blank_lines, 11, 8))` (R167). -/
def lane7Byte (P : TimingParameters) : Byte := nibpack (high4 P.vertAddrLines) (high4 P.vertBlankLines)

/-- Lane 8 is `SLICE(horz_front_porch_px, 7, 0)` (R168). -/
def lane8Byte (P : TimingParameters) : Byte := low8 P.horzFrontPorchPx

/-- Lane 9 is `SLICE(horz_sync_pulse_px, 7, 0)` (R169). -/
def lane9Byte (P : TimingParameters) : Byte := low8 P.horzSyncPulsePx

/-- Lane 10 is `NIBPACK(SLICE(vert_front_porch_lines, 3, 0), SLICE(vert_sync_pulse_lines, 3, 0))` (R170). -/
def lane10Byte (P : TimingParameters) : Byte := nibpack (low4 P.vertFrontPorchLines) (low4 P.vertSyncPulseLines)

/-- Lane 11 is `PAIRPACK(SLICE(horz_front_porch_px, 9, 8), SLICE(horz_sync_pulse_px, 9, 8), SLICE(vert_front_porch_lines, 5, 4),
SLICE(vert_sync_pulse_lines, 5, 4))` (R171). -/
def lane11Byte (P : TimingParameters) : Byte :=
  pairpack (bits9to8 P.horzFrontPorchPx) (bits9to8 P.horzSyncPulsePx) (bits5to4 P.vertFrontPorchLines)
    (bits5to4 P.vertSyncPulseLines)

/-- Lane 12 is `SLICE(horz_image_mm, 7, 0)` (R172). -/
def lane12Byte (P : TimingParameters) : Byte := low8 P.horzImageMm

/-- Lane 13 is `SLICE(vert_image_mm, 7, 0)` (R173). -/
def lane13Byte (P : TimingParameters) : Byte := low8 P.vertImageMm

/-- Lane 14 is `NIBPACK(SLICE(horz_image_mm, 11, 8), SLICE(vert_image_mm, 11, 8))` (R174). -/
def lane14Byte (P : TimingParameters) : Byte := nibpack (high4 P.horzImageMm) (high4 P.vertImageMm)

/-- Lane 15 is `SLICE(horz_border_px, 7, 0)` (R175). -/
def lane15Byte (P : TimingParameters) : Byte := low8 P.horzBorderPx

/-- Lane 16 is `SLICE(vert_border_lines, 7, 0)` (R176). -/
def lane16Byte (P : TimingParameters) : Byte := low8 P.vertBorderLines

/-- Lane 17, the flags byte: FLAGS_CONST where GENERALIZE_FLAGS = 0, else `SLICE(sync_flags, 7, 0)` (R177). -/
def lane17Byte (c : Config) (P : TimingParameters) : Byte := if c.generalizeFlags then low8 P.syncFlags else flagsConst

/-- The bytes of ENCODE(P) in lane order, lane 0 first (R180, R41). -/
def encodeBytes (c : Config) (P : TimingParameters) : List Byte :=
  [lane0Byte P, lane1Byte P, lane2Byte P, lane3Byte P, lane4Byte P, lane5Byte P, lane6Byte P, lane7Byte P, lane8Byte P,
    lane9Byte P, lane10Byte P, lane11Byte P, lane12Byte P, lane13Byte P, lane14Byte P, lane15Byte P, lane16Byte P,
    lane17Byte c P]

/-- ENCODE(P) (R180), typed as exactly 18 bytes (R181). -/
def descriptor (c : Config) (P : TimingParameters) : Descriptor := ⟨(encodeBytes c P).toArray, rfl⟩

/-- LANE0 (R160). -/
def execLane0 (s : State) : Host.Outcome State Fault Refusal := .next (s.setLane 0 (lane0Byte s.ports))

/-- LANE1 (R161). -/
def execLane1 (s : State) : Host.Outcome State Fault Refusal := .next (s.setLane 1 (lane1Byte s.ports))

/-- LANE2 (R162). -/
def execLane2 (s : State) : Host.Outcome State Fault Refusal := .next (s.setLane 2 (lane2Byte s.ports))

/-- LANE3 (R163). -/
def execLane3 (s : State) : Host.Outcome State Fault Refusal := .next (s.setLane 3 (lane3Byte s.ports))

/-- LANE4 (R164). -/
def execLane4 (s : State) : Host.Outcome State Fault Refusal := .next (s.setLane 4 (lane4Byte s.ports))

/-- LANE5 (R165). -/
def execLane5 (s : State) : Host.Outcome State Fault Refusal := .next (s.setLane 5 (lane5Byte s.ports))

/-- LANE6 (R166). -/
def execLane6 (s : State) : Host.Outcome State Fault Refusal := .next (s.setLane 6 (lane6Byte s.ports))

/-- LANE7 (R167). -/
def execLane7 (s : State) : Host.Outcome State Fault Refusal := .next (s.setLane 7 (lane7Byte s.ports))

/-- LANE8 (R168). -/
def execLane8 (s : State) : Host.Outcome State Fault Refusal := .next (s.setLane 8 (lane8Byte s.ports))

/-- LANE9 (R169). -/
def execLane9 (s : State) : Host.Outcome State Fault Refusal := .next (s.setLane 9 (lane9Byte s.ports))

/-- LANE10 (R170). -/
def execLane10 (s : State) : Host.Outcome State Fault Refusal := .next (s.setLane 10 (lane10Byte s.ports))

/-- LANE11 (R171). -/
def execLane11 (s : State) : Host.Outcome State Fault Refusal := .next (s.setLane 11 (lane11Byte s.ports))

/-- LANE12 (R172). -/
def execLane12 (s : State) : Host.Outcome State Fault Refusal := .next (s.setLane 12 (lane12Byte s.ports))

/-- LANE13 (R173). -/
def execLane13 (s : State) : Host.Outcome State Fault Refusal := .next (s.setLane 13 (lane13Byte s.ports))

/-- LANE14 (R174). -/
def execLane14 (s : State) : Host.Outcome State Fault Refusal := .next (s.setLane 14 (lane14Byte s.ports))

/-- LANE15 (R175). -/
def execLane15 (s : State) : Host.Outcome State Fault Refusal := .next (s.setLane 15 (lane15Byte s.ports))

/-- LANE16 (R176). -/
def execLane16 (s : State) : Host.Outcome State Fault Refusal := .next (s.setLane 16 (lane16Byte s.ports))

/-- LANE17 (R177): the lane-17 former of this configuration (notes/assumptions/5.md). -/
def execLane17 (s : State) : Host.Outcome State Fault Refusal := .next (s.setLane 17 (lane17Byte s.cfg s.ports))

/-- LANE17_GEN (R177): the lane-17 former of this configuration (notes/assumptions/5.md). -/
def execLane17Gen (s : State) : Host.Outcome State Fault Refusal := .next (s.setLane 17 (lane17Byte s.cfg s.ports))

/-- ENCODE (R180): the final length check (R221), then all 18 lanes at once (R47), and the `oor` output of the same
transaction where VALIDATE = 1 (R22, R31, R250; DEDUCED, notes/assumptions/8.md). -/
def execEncode (s : State) : Host.Outcome State Fault Refusal :=
  match checkLength (encodeBytes s.cfg s.ports) with
  | .ok d => .next ((s.setLanes d).setOor (oorOf s.cfg s.ports))
  | .error f => .fault f

end Sys2Proof.Machine
end

