-- ==== Sys2Proof/Machine/Slicer.lean ====
section
/-!
DEFINITION. The multi-width field slicer, MASK and SLICE (spec/41_field_slicer.md).
-/

namespace Sys2Proof.Machine

/-- MASK (R120): the low W bits of v. -/
def execMask (w : MaskWidth) (v : Nat) (s : State) : Host.Outcome State Fault Refusal :=
  .next (s.setMask ⟨widthOf w, mask (widthOf w) v⟩)

/-- SLICE (R121): bits hi:lo of v, for hi ≥ lo. -/
def execSlice (v hi lo : Nat) (s : State) : Host.Outcome State Fault Refusal :=
  if lo ≤ hi then .next (s.setSlice ⟨hi - lo + 1, slice v hi lo⟩) else .refused .sliceOrder

end Sys2Proof.Machine
end

