-- ==== Sys2Proof/Machine/Dispatch.lean ====
section
/-!
DEFINITION. One arm per constructor of Instr, each one direct call of its meaning.
-/

namespace Sys2Proof.Machine

def exec (i : Instr) (s : State) : Host.Outcome State Fault Refusal :=
  match i with
  | .encode => Sys2Proof.Machine.execEncode s
  | .pcq => Sys2Proof.Machine.execPcq s
  | .mask w v => Sys2Proof.Machine.execMask w v s
  | .slice v hi lo => Sys2Proof.Machine.execSlice v hi lo s
  | .nibpack h l => Sys2Proof.Machine.execNibpack h l s
  | .pairpack a b c d => Sys2Proof.Machine.execPairpack a b c d s
  | .lane0 => Sys2Proof.Machine.execLane0 s
  | .lane1 => Sys2Proof.Machine.execLane1 s
  | .lane2 => Sys2Proof.Machine.execLane2 s
  | .lane3 => Sys2Proof.Machine.execLane3 s
  | .lane4 => Sys2Proof.Machine.execLane4 s
  | .lane5 => Sys2Proof.Machine.execLane5 s
  | .lane6 => Sys2Proof.Machine.execLane6 s
  | .lane7 => Sys2Proof.Machine.execLane7 s
  | .lane8 => Sys2Proof.Machine.execLane8 s
  | .lane9 => Sys2Proof.Machine.execLane9 s
  | .lane10 => Sys2Proof.Machine.execLane10 s
  | .lane11 => Sys2Proof.Machine.execLane11 s
  | .lane12 => Sys2Proof.Machine.execLane12 s
  | .lane13 => Sys2Proof.Machine.execLane13 s
  | .lane14 => Sys2Proof.Machine.execLane14 s
  | .lane15 => Sys2Proof.Machine.execLane15 s
  | .lane16 => Sys2Proof.Machine.execLane16 s
  | .lane17 => Sys2Proof.Machine.execLane17 s
  | .lane17Gen => Sys2Proof.Machine.execLane17Gen s
  | .validate => Sys2Proof.Machine.execValidate s

end Sys2Proof.Machine
end

