-- ==== Sys2Proof/Machine/Wrapper.lean ====
section
/-!
DEFINITION. The registered wrapper (spec/10_state.md R27 to R32, spec/70 R251 to R253, R258): what one rising edge of `clk`
does to its registers.
-/

namespace Sys2Proof.Machine

/-- A rising edge with `rst` = 1 (R29, R251): `out_valid_q` becomes 0, and the data registers hold no specified value. -/
def State.resetEdge (s : State) : State :=
  { s with outValidQ := some false, dtdQ := none, oorQ := none, resetSeen := true }

/-- A rising edge with `rst` = 0 and `in_valid` = 1 (R29): the record at the ports is accepted. `oor_q` exists only where
VALIDATE = 1 (R28). -/
def State.acceptEdge (s : State) : State :=
  { s with
    outValidQ := some true
    dtdQ := some (descriptor s.cfg s.ports)
    oorQ := if s.cfg.validate then some (oorOf s.cfg s.ports) else s.oorQ }

/-- A rising edge with `rst` = 0 and `in_valid` = 0 (R29): `out_valid_q` becomes 0 and the data registers hold. -/
def State.idleEdge (s : State) : State := { s with outValidQ := some false }

/-- A rising edge with `rst` = 0 before the first reset edge: every register, `out_valid_q` included, stays unspecified (R253),
and "the model holds no value" (spec/93 I4). The clock goes on. -/
def State.preResetEdge (s : State) : State := { s with outValidQ := none, dtdQ := none, oorQ := none }

/-- One rising edge of `clk` (R29); reset takes priority over `in_valid` (R251), and until the first reset edge no register
has a value (R253). The core has no clock (R250). -/
def State.clockEdge (s : State) (rst inValid : Bool) : State :=
  if s.cfg.wrapper then
    if rst then s.resetEdge
    else if s.resetSeen then
      if inValid then s.acceptEdge
      else s.idleEdge
    else s.preResetEdge
  else s

end Sys2Proof.Machine
end

