-- ==== Sys2Proof/Machine/Transaction.lean ====
section
/-!
DEFINITION. One transaction or clock edge (spec/10_state.md R21, R29, R31): the beat's record is presented at the input ports,
the selected operation is evaluated, and in the wrapper the edge is taken.
-/

namespace Sys2Proof.Machine

/-- No record is accepted at this edge: the wrapper is in reset, or `in_valid` = 0 (R29). The core has neither pin (R27). -/
def State.discards (s : State) (b : Beat) : Bool := s.cfg.wrapper && (b.rst || !b.inValid)

/-- The accepted transaction of a decoded word: present the record, evaluate the operation, take the edge. -/
def State.transact (s : State) (i : Instr) (P : TimingParameters) : Host.Outcome State Fault Refusal :=
  match exec i (s.present P) with
  | .next t => .next (t.clockEdge false true)
  | .fault f => .fault f
  | .refused r => .refused r

/-- One beat. Where no record is accepted the word is not looked at: "a record must be held on the ports only in the cycle in
which it is accepted" (R257). -/
def State.runBeat (s : State) (b : Beat) : Host.Outcome State Fault Refusal :=
  if s.discards b then .next (s.clockEdge b.rst b.inValid)
  else
    match decode s.cfg b.word with
    | .error e => .refused (.undecodable e)
    | .ok (i, P) => s.transact i P

/-- Take the next beat, if the environment presents one. With none, the ports are held and `in_valid` = 0
(DESIGN CHOICE, notes/assumptions/6.md). -/
def State.advance (s : State) : Host.Outcome State Fault Refusal :=
  match s.inputs with
  | [] => .next (s.clockEdge false false)
  | b :: rest => (s.withInputs rest).runBeat b

/-- Place a beat so that it is the next one taken. -/
def State.offer (s : State) (b : Beat) : State := s.withInputs (b :: s.inputs)

end Sys2Proof.Machine
end

