-- ==== Sys2Proof/Machine/Step.lean ====
section
/-!
DEFINITION. One step of EDE: one transaction of the core, or one rising edge of the wrapper's clock (spec/10_state.md R21, R31).
-/

namespace Sys2Proof.Machine

/-- One step. -/
def step (s : State) : Host.Outcome State Fault Refusal := s.advance

/-- The state in which the next step runs the operation that a pattern of spec/opcode_table.json determines: the beat that
carries its transaction word, accepted (`rst` = 0, `in_valid` = 1), is placed first. -/
def State.withFetchWord (s : State) (nbits w : Nat) : State :=
  s.offer ⟨false, true, tableWord s.cfg nbits w⟩

end Sys2Proof.Machine
end

