-- ==== Sys2Proof/Machine/Layout.lean ====
section
/-!
DEFINITION. The descriptor bit map of spec/30_encoding.md R63, transcribed as data: which bit of which field, or which
constant, stands at each bit of each lane. The meanings of the operations do not use it; statements hold them against it.
-/

namespace Sys2Proof.Machine

/-- What stands at one output bit. -/
inductive BitSource where
  /-- A bit of `q`. -/
  | count (bit : Nat)
  /-- A bit of a field's port value. -/
  | port (f : Field) (bit : Nat)
  /-- A constant bit of FLAGS_CONST. -/
  | const (b : Bool)
  deriving DecidableEq, Repr

/-- A group of one letter: `n` bits of a field in descending order from bit `hi` (R62). -/
def group (f : Field) (hi n : Nat) : List BitSource := (List.range n).map fun j => .port f (hi - j)

/-- A group of the letter P. -/
def countGroup (hi n : Nat) : List BitSource := (List.range n).map fun j => .count (hi - j)

/-- The table of R63: one row per lane, bit 7 first. -/
def layout (generalizeFlags : Bool) : List (List BitSource) :=
  [countGroup 7 8,
    countGroup 15 8,
    group .horzAddrPx 7 8,
    group .horzBlankPx 7 8,
    group .horzAddrPx 11 4 ++ group .horzBlankPx 11 4,
    group .vertAddrLines 7 8,
    group .vertBlankLines 7 8,
    group .vertAddrLines 11 4 ++ group .vertBlankLines 11 4,
    group .horzFrontPorchPx 7 8,
    group .horzSyncPulsePx 7 8,
    group .vertFrontPorchLines 3 4 ++ group .vertSyncPulseLines 3 4,
    group .horzFrontPorchPx 9 2 ++ group .horzSyncPulsePx 9 2 ++ group .vertFrontPorchLines 5 2 ++
      group .vertSyncPulseLines 5 2,
    group .horzImageMm 7 8,
    group .vertImageMm 7 8,
    group .horzImageMm 11 4 ++ group .vertImageMm 11 4,
    group .horzBorderPx 7 8,
    group .vertBorderLines 7 8,
    if generalizeFlags then group .syncFlags 7 8
    else [.const false, .const false, .const false, .const true, .const true, .const false, .const true, .const false]]

/-- What stands at bit `i` of lane `k`, bit 0 the least significant (R9, R42). -/
def bitSource (generalizeFlags : Bool) (k : Fin 18) (i : Fin 8) : BitSource :=
  ((layout generalizeFlags).getD k.val []).getD (7 - i.val) (.const false)

/-- The field a source belongs to. -/
def BitSource.field (b : BitSource) : Option Field :=
  match b with
  | .count _ => some .pixelClockHz
  | .port f _ => some f
  | .const _ => none

/-- The value of a source for a record. -/
def BitSource.value (b : BitSource) (P : TimingParameters) : Bool :=
  match b with
  | .count j => (pcqCount P.pixelClockHz).getLsbD j
  | .port f j => (portValue P f).testBit j
  | .const v => v

/-- The index of a field, which numbers its bit of `oor` (R11, R24, R200). -/
def fieldIndex (f : Field) : Fin 14 :=
  match f with
  | .pixelClockHz => 0
  | .horzAddrPx => 1
  | .horzBlankPx => 2
  | .vertAddrLines => 3
  | .vertBlankLines => 4
  | .horzFrontPorchPx => 5
  | .horzSyncPulsePx => 6
  | .vertFrontPorchLines => 7
  | .vertSyncPulseLines => 8
  | .horzImageMm => 9
  | .vertImageMm => 10
  | .horzBorderPx => 11
  | .vertBorderLines => 12
  | .syncFlags => 13

end Sys2Proof.Machine
end

