-- ==== Sys2Proof/Safety.lean ====
section
/-!
DEFINITION. What counts as a safe state and a safe run of EDE, and the notions the statements are written in.
-/

namespace Sys2Proof.Machine

/-- The outputs never disagree with the record at the input ports (spec/10_state.md R20, R30, R47). -/
structure State.Consistent (s : State) : Prop where
  /-- A settled lane holds its byte of ENCODE of the record at the ports (R20). -/
  lanes : ∀ (k : Fin 18) (b : Byte), s.lanes[k] = some b → b = (descriptor s.cfg s.ports)[k]
  /-- A settled `q` is the count of the pixel clock at the port (R100). -/
  count : ∀ q : Count, s.qNet = some q → q = pcqCount s.ports.pixelClockHz
  /-- A settled `oor` is OOR of the record at the ports, and exists only where VALIDATE = 1 (R200, R201). -/
  report : ∀ v : OorVec, s.oor = some v → s.cfg.validate = true ∧ v = oorOf s.cfg s.ports
  /-- While `out_valid` = 1 the registers hold ENCODE and OOR of the record just accepted (R30). -/
  held : s.cfg.wrapper = true → s.outValidQ = some true →
    s.dtdQ = some (descriptor s.cfg s.ports) ∧ (s.cfg.validate = true → s.oorQ = some (oorOf s.cfg s.ports))
  /-- Once a reset edge has been taken `out_valid_q` has a value (R251, R253). -/
  observable : s.resetSeen = true → s.outValidQ ≠ none
  /-- Until a reset edge has been taken no register has a value (R253, I4). -/
  unspecified : s.resetSeen = false → s.outValidQ = none ∧ s.dtdQ = none ∧ s.oorQ = none
  /-- `oor_q` is present only where VALIDATE = 1 (R28). -/
  absent : s.cfg.validate = false → s.oorQ = none
  /-- `dtd_q` never mixes two records (R47). -/
  untorn : ∀ d : Descriptor, s.dtdQ = some d → ∃ P : TimingParameters, P.fits s.cfg ∧ d = descriptor s.cfg P
  /-- The ports carry values of their widths (R24). -/
  representable : s.ports.fits s.cfg

/-- An accepted beat that carries an operation on a record. -/
def beatOf (c : Config) (i : Instr) (P : TimingParameters) : Beat := ⟨false, true, encode c i P⟩

/-- The outputs may be observed: always for the core, after a reset edge for the wrapper (R253). -/
def State.Observable (s : State) : Prop := s.cfg.wrapper = true → s.resetSeen = true

/-- The lane an operation forms, for LANE0 to LANE17 and LANE17_GEN (R61). -/
def laneOf (i : Instr) : Option (Fin 18) :=
  match i with
  | .lane0 => some 0
  | .lane1 => some 1
  | .lane2 => some 2
  | .lane3 => some 3
  | .lane4 => some 4
  | .lane5 => some 5
  | .lane6 => some 6
  | .lane7 => some 7
  | .lane8 => some 8
  | .lane9 => some 9
  | .lane10 => some 10
  | .lane11 => some 11
  | .lane12 => some 12
  | .lane13 => some 13
  | .lane14 => some 14
  | .lane15 => some 15
  | .lane16 => some 16
  | .lane17 | .lane17Gen => some 17
  | .encode | .pcq | .mask _ _ | .slice _ _ _ | .nibpack _ _ | .pairpack _ _ _ _ | .validate => none

/-- The lanes an operation drives: all for ENCODE, 0 and 1 for PCQ (R101), its own for a lane operation. -/
def drives (i : Instr) (k : Fin 18) : Bool :=
  match i with
  | .encode => true
  | .pcq => k.val < 2
  | .mask _ _ | .slice _ _ _ | .nibpack _ _ | .pairpack _ _ _ _ | .validate => false
  | .lane0 | .lane1 | .lane2 | .lane3 | .lane4 | .lane5 | .lane6 | .lane7 | .lane8
  | .lane9 | .lane10 | .lane11 | .lane12 | .lane13 | .lane14 | .lane15 | .lane16 | .lane17 | .lane17Gen => laneOf i = some k

/-- Evaluate operations one after another on one state. -/
def execAll : List Instr → State → Host.Outcome State Fault Refusal
  | [], s => .next s
  | i :: is, s =>
    match exec i s with
    | .next t => execAll is t
    | .fault f => .fault f
    | .refused r => .refused r

end Sys2Proof.Machine
end

