-- ==== Sys2Proof/Certificates/Slice0/Obligations.lean ====
section
/-!
DEFINITION. The statements for the provers. OBLIGATIONS.json lists them with the rules of spec/ they formalise. Where a
statement presents a record to a step, the beat carries it in the model's own word format (notes/assumptions/2.md and 15.md).
-/

open Sys2Proof Sys2Proof.Machine

/-! ### Reset, power-up and the wrapper -/

/-- R32: the reset value of every piece of state, under every configuration. -/
def Obligations.ResetValueOfEveryPieceOfState : Prop :=
  (∀ (s : State) (r v : Bool), s.cfg.wrapper = false → s.clockEdge r v = s) ∧
  (∀ (s : State) (v : Bool), s.cfg.wrapper = true →
    (s.clockEdge true v).outValidQ = some false ∧ (s.clockEdge true v).dtdQ = none ∧ (s.clockEdge true v).oorQ = none ∧
      (s.clockEdge true v).cfg = s.cfg) ∧
  (∀ c : Config, (State.resetWith c).outValidQ = some false ∧ (State.resetWith c).dtdQ = none ∧
    (State.resetWith c).oorQ = none ∧ (State.resetWith c).cfg = c) ∧
  State.reset.outValidQ = some false ∧ State.reset.dtdQ = none ∧ State.reset.oorQ = none

/-- R29: the wrapper's registers after each kind of clock edge, as steps. After a reset edge the data registers hold no
value, as R30 says of the model; until the first reset edge no register has a value, as R253 and I4 of spec/93 say. -/
def Obligations.WrapperRegistersAfterEachEdge : Prop :=
  ∀ (s : State) (b : Beat) (rest : List Beat), s.cfg.wrapper = true → s.inputs = b :: rest →
    (b.rst = true → ∃ t, step s = .next t ∧ t.outValidQ = some false ∧ t.dtdQ = none ∧ t.oorQ = none) ∧
    (s.resetSeen = true → b.rst = false → b.inValid = true →
      ∀ P : TimingParameters, decode s.cfg b.word = .ok (.encode, P) →
      ∃ t, step s = .next t ∧ t.outValidQ = some true ∧ t.dtdQ = some (descriptor s.cfg P) ∧
        (s.cfg.validate = true → t.oorQ = some (oorOf s.cfg P))) ∧
    (s.resetSeen = true → b.rst = false → b.inValid = false →
      ∃ t, step s = .next t ∧ t.outValidQ = some false ∧ t.dtdQ = s.dtdQ ∧ t.oorQ = s.oorQ) ∧
    (s.resetSeen = false → b.rst = false →
      (b.inValid = true → ∃ P : TimingParameters, decode s.cfg b.word = .ok (.encode, P)) →
      ∃ t, step s = .next t ∧ t.outValidQ = none ∧ t.dtdQ = none ∧ t.oorQ = none ∧ t.resetSeen = false)

/-- Every accepted beat captures ENCODE and OOR of its record, whichever operation it names; the operation's own results are
those of `exec` (the model's reading of R29, notes/assumptions/12.md). Before the first reset edge nothing is captured and no
register has a value (R253). -/
def Obligations.EveryAcceptedBeatCapturesItsRecord : Prop :=
  ∀ (s : State) (b : Beat) (rest : List Beat) (i : Instr) (P : TimingParameters), s.cfg.wrapper = true →
    s.inputs = b :: rest → b.rst = false → b.inValid = true → decode s.cfg b.word = .ok (i, P) →
    ∃ t u, step s = .next t ∧ exec i ((s.withInputs rest).present P) = .next u ∧
      (s.resetSeen = true → t = { u with
        outValidQ := some true
        dtdQ := some (descriptor s.cfg P)
        oorQ := if s.cfg.validate then some (oorOf s.cfg P) else s.oorQ }) ∧
      (s.resetSeen = false → t = { u with outValidQ := none, dtdQ := none, oorQ := none })

/-- R251: one reset edge clears `out_valid_q` whatever `in_valid` and the record are (the record presented reaches no register),
and from then on, over any number of edges that accept no record (further reset edges among them), `dtd_q` and `oor_q` hold no
value and `out_valid_q` stays 0. -/
def Obligations.ResetEdgeDiscardsAndHoldsUntilAccepted : Prop :=
  ∀ (s : State) (r : Beat) (bs rest : List Beat), s.cfg.wrapper = true → r.rst = true →
    (∀ b ∈ bs, b.rst = true ∨ b.inValid = false) → s.inputs = r :: bs ++ rest →
    ∃ t, Host.Core.run Sys2Proof.core (bs.length + 1) s = .next t ∧ t.outValidQ = some false ∧ t.dtdQ = none ∧
      t.oorQ = none ∧ t.inputs = rest

/-- R252: from the last reset edge until the first accepted record `out_valid` is 0; then it is 1 and `dtd` is ENCODE of that
record. -/
def Obligations.LeavingResetFirstRecordIsVisible : Prop :=
  ∀ (s : State) (r a : Beat) (idle rest : List Beat) (P : TimingParameters), s.cfg.wrapper = true →
    r.rst = true → (∀ b ∈ idle, b.rst = false ∧ b.inValid = false) → a.rst = false → a.inValid = true →
    decode s.cfg a.word = .ok (.encode, P) → s.inputs = r :: idle ++ a :: rest →
    (∀ k ≤ idle.length, ∃ t, Host.Core.run Sys2Proof.core (k + 1) s = .next t ∧ t.readOutValid = .ok false) ∧
    ∃ t, Host.Core.run Sys2Proof.core (idle.length + 2) s = .next t ∧ t.readOutValid = .ok true ∧
      t.readDtd = .ok (descriptor s.cfg P)

/-- R253: at power-up no register has a value, and until a reset edge is taken no register gets one and no output observation
is admitted, whatever the clock and the records do. -/
def Obligations.PowerUpAdmitsNoObservation : Prop :=
  ∀ (c : Config) (bs : List Beat), c.wrapper = true →
    (∀ b ∈ bs, b.rst = false ∧ (b.inValid = true → ∃ i P, decode c b.word = .ok (i, P))) →
    ((State.powerUp c).outValidQ = none ∧ (State.powerUp c).dtdQ = none ∧ (State.powerUp c).oorQ = none) ∧
    ∀ k : Nat, ∃ t, Host.Core.run Sys2Proof.core k ((State.powerUp c).withInputs bs) = .next t ∧
      t.outValidQ = none ∧ t.dtdQ = none ∧ t.oorQ = none ∧
      t.readOutValid = .error .readBeforeReset ∧ t.readDtd = .error .readBeforeReset ∧
      (∀ l : Fin 18, t.readLane l = .error .readBeforeReset) ∧
      (c.validate = true → t.readOor = .error .readBeforeReset)

/-- R30: `dtd` and `oor` can be read only in a cycle where `out_valid` = 1, and there they are ENCODE and OOR of the record
accepted at the edge before; in every other cycle a read is a fault. -/
def Obligations.OutputsReadableOnlyWhileValid : Prop :=
  (∀ s : State, s.cfg.wrapper = true → s.readOutValid ≠ .ok true →
    (∃ f, s.readDtd = .error f) ∧ (∀ k : Fin 18, ∃ f, s.readLane k = .error f) ∧ ∃ f, s.readOor = .error f) ∧
  (∀ (s : State) (b : Beat) (rest : List Beat) (P : TimingParameters), s.cfg.wrapper = true →
    s.resetSeen = true → s.inputs = b :: rest → b.rst = false → b.inValid = true → decode s.cfg b.word = .ok (.encode, P) →
    ∃ t, step s = .next t ∧ t.readOutValid = .ok true ∧ t.readDtd = .ok (descriptor s.cfg P) ∧
      (s.cfg.validate = true → t.readOor = .ok (oorOf s.cfg P))) ∧
  (∀ (s : State) (v : Bool), s.cfg.wrapper = true → (s.clockEdge true v).dtdQ = none ∧
    (s.clockEdge true v).readDtd = .error .readInvalid)

/-- R31: the core and the wrapper give the same descriptor (and the same report) for the same record. -/
def Obligations.WrapperAndCoreGiveTheSameDescriptor : Prop :=
  ∀ (s w : State) (b : Beat) (rest rest' : List Beat) (P : TimingParameters), s.cfg.wrapper = false →
    w.cfg = { s.cfg with wrapper := true } → w.resetSeen = true → s.inputs = b :: rest → w.inputs = b :: rest' →
    b.rst = false → b.inValid = true → decode s.cfg b.word = .ok (.encode, P) →
    ∃ t u, step s = .next t ∧ step w = .next u ∧ t.readDtd = .ok (descriptor s.cfg P) ∧ u.readDtd = t.readDtd ∧
      u.readOor = t.readOor

/-! ### History, order and settling -/

/-- R26: no hidden state. Two machines of one configuration with any two histories give the same outputs for the same
record. -/
def Obligations.OutputsIndependentOfHistory : Prop :=
  ∀ (s s' : State) (b : Beat) (rest rest' : List Beat) (P : TimingParameters), s'.cfg = s.cfg → s.Observable →
    s'.Observable → s.inputs = b :: rest → s'.inputs = b :: rest' → b.rst = false → b.inValid = true →
    decode s.cfg b.word = .ok (.encode, P) →
    ∃ t t', step s = .next t ∧ step s' = .next t' ∧ (∃ d, t.readDtd = .ok d) ∧ t'.readDtd = t.readDtd ∧
      t'.readOor = t.readOor ∧ (∀ k : Fin 18, t'.readLane k = t.readLane k)

/-- R50, over runs: whatever transactions come before and after, each output is ENCODE of its own record, in the order of
acceptance. -/
def Obligations.EveryTransactionGetsItsOwnRecord : Prop :=
  ∀ (s : State) (Ps : List TimingParameters) (rest : List Beat), s.Observable → (∀ P ∈ Ps, P.fits s.cfg) →
    s.inputs = Ps.map (beatOf s.cfg .encode) ++ rest →
    ∀ (k : Nat) (h : k < Ps.length), ∃ t, Host.Core.run Sys2Proof.core (k + 1) s = .next t ∧
      t.readDtd = .ok (descriptor s.cfg Ps[k]) ∧
      (s.cfg.validate = true → t.readOor = .ok (oorOf s.cfg Ps[k])) ∧
      t.inputs = (Ps.drop (k + 1)).map (beatOf s.cfg .encode) ++ rest

/-- R256, on the core: when an input changes no output that depends on it has a value; after ENCODE every output has the new
record's value. -/
def Obligations.ChangedInputsUnsettleTheOutputs : Prop :=
  ∀ (s : State) (P : TimingParameters), s.cfg.wrapper = false → P ≠ s.ports →
    (∀ k : Fin 18, (s.present P).readLane k = .error .readUnsettled) ∧
    (s.present P).readDtd = .error .readUnsettled ∧
    (s.cfg.validate = true → (s.present P).readOor = .error .readUnsettled) ∧
    ∃ t, exec .encode (s.present P) = .next t ∧ t.readDtd = .ok (descriptor s.cfg P) ∧
      (∀ k : Fin 18, t.readLane k = .ok (descriptor s.cfg P)[k]) ∧
      (s.cfg.validate = true → t.readOor = .ok (oorOf s.cfg P))

/-- R47, on the wrapper: in every state of a consistent machine, what a consumer reads with `out_valid` = 1 is one record's
encoding and report. -/
def Obligations.ReadOutputsAreOneRecord : Prop :=
  ∀ s : State, s.Consistent → s.readOutValid = .ok true →
    ∃ P : TimingParameters, P.fits s.cfg ∧ s.readDtd = .ok (descriptor s.cfg P) ∧
      (∀ k : Fin 18, s.readLane k = .ok (descriptor s.cfg P)[k]) ∧
      (s.cfg.validate = true → s.readOor = .ok (oorOf s.cfg P))

/-! ### Output format -/

/-- R40: the count is little-endian in lanes 0 and 1; read the other way round its bytes are swapped. -/
def Obligations.PixelClockIsLittleEndian : Prop :=
  ∀ (c : Config) (P : TimingParameters),
    (descriptor c P)[0] = (pcqCount P.pixelClockHz).extractLsb' 0 8 ∧
    (descriptor c P)[1] = (pcqCount P.pixelClockHz).extractLsb' 8 8 ∧
    (descriptor c P)[1] ++ (descriptor c P)[0] = pcqCount P.pixelClockHz ∧
    (descriptor c P)[0] ++ (descriptor c P)[1] =
      (pcqCount P.pixelClockHz).extractLsb' 0 8 ++ (pcqCount P.pixelClockHz).extractLsb' 8 8

/-- R41: lane k is at `dtd[8k+7:8k]`, byte k has significance 2^(8k), and the serial order is lane 0 first. -/
def Obligations.PackedVectorHoldsLaneKAtByteK : Prop :=
  ∀ d : Descriptor,
    (∀ k : Fin 18, (packed d).extractLsb' (8 * k.val) 8 = d[k]) ∧
    (packed d).toNat = ∑ k : Fin 18, d[k].toNat * 2 ^ (8 * k.val) ∧
    (∀ (c : Config) (P : TimingParameters) (k : Fin 18), (encodeBytes c P)[k.val]? = some (descriptor c P)[k])

/-- R63: every bit of every lane is the bit, or the constant, of the descriptor bit map. -/
def Obligations.DescriptorFollowsTheBitMap : Prop :=
  ∀ (c : Config) (P : TimingParameters) (k : Fin 18) (i : Fin 8),
    (descriptor c P)[k].getLsbD i.val = (bitSource c.generalizeFlags k i).value P

/-- R64: below its width every bit of every field (of `q` for the pixel clock, of `sync_flags` only where it is placed)
stands at exactly one output bit, and no bit at or above the width stands anywhere. -/
def Obligations.EveryFieldBitIsPlacedExactlyOnce : Prop :=
  ∀ (g : Bool) (f : Field) (j : Nat),
    (j < fieldWidth f → (f = .syncFlags → g = true) →
      ∃ k i, (bitSource g k i = if f = .pixelClockHz then .count j else .port f j) ∧
        ∀ k' i', (bitSource g k' i' = if f = .pixelClockHz then .count j else .port f j) → k' = k ∧ i' = i) ∧
    (∀ k i, bitSource g k i = .port f j → f ≠ .pixelClockHz ∧ j < fieldWidth f ∧ (f = .syncFlags → g = true)) ∧
    (∀ k i, bitSource g k i = .count j → j < 16)

/-- R67: UNPACK after ENCODE gives every field modulo its width and the rounded count, and ENCODE after UNPACK gives the
descriptor back. -/
def Obligations.PackUnpackRoundTrip : Prop :=
  (∀ (c : Config) (P : TimingParameters),
    unpackCount (descriptor c P) = BitVec.ofNat 16 ((P.pixelClockHz + 5000) / 10000 % 2 ^ 16) ∧
    (∀ f : Field, f ≠ .pixelClockHz → f ≠ .syncFlags →
      portValue (unpack (descriptor c P)) f = portValue P f % 2 ^ fieldWidth f) ∧
    (unpack (descriptor c P)).syncFlags = if c.generalizeFlags then P.syncFlags % 256 else 0x1A) ∧
  (∀ (c : Config) (d : Descriptor), (c.generalizeFlags = true ∨ d[17] = 0x1A) → descriptor c (unpack d) = d)

/-- R68: under a legal configuration ENCODE produces, from records the ports can carry, exactly the descriptors whose lane 17
is 0x1A where GENERALIZE_FLAGS = 0, and all of them where it is 1. -/
def Obligations.ExactlyWhichDescriptorsAreProduced : Prop :=
  ∀ (c : Config) (d : Descriptor), c.legal →
    ((∃ P : TimingParameters, P.fits c ∧ descriptor c P = d) ↔ (c.generalizeFlags = true ∨ d[17] = 0x1A))

/-! ### The pixel-clock quantizer -/

/-- R100, R101: PCQ's count and the two lanes it fills; nothing else changes. -/
def Obligations.PcqRoundsDividesAndKeepsSixteenBits : Prop :=
  (∀ s : State, ∃ q : Count, q = BitVec.ofNat 16 ((s.ports.pixelClockHz + 5000) / 10000 % 2 ^ 16) ∧
    pixelClockBytes s.ports.pixelClockHz = (q.extractLsb' 0 8, q.extractLsb' 8 8) ∧
    exec .pcq s = .next { s with
      qNet := some q
      lanes := (s.lanes.set 0 (some (q.extractLsb' 0 8))).set 1 (some (q.extractLsb' 8 8)) }) ∧
  pixelClockBytes 69750000 = (0x3F, 0x1B)

/-- R102: round to nearest, ties up, once, before the mask. -/
def Obligations.RoundingIsToNearestTiesUp : Prop :=
  ∀ (n r : Nat), r < 10000 →
    (r < 5000 → quotient (10000 * n + r) = n) ∧ (5000 ≤ r → quotient (10000 * n + r) = n + 1) ∧
    pcqCount (10000 * n + r) = BitVec.ofNat 16 (if r < 5000 then n else n + 1)

/-- R103: the sum formed at PCLK_IN_W + 1 bits or more and divided there is the exact quotient for every value of the port; a
32-bit sum would not be. -/
def Obligations.AdderOfOneMoreBitIsExact : Prop :=
  (∀ (w n hz : Nat), 30 ≤ w → w + 1 ≤ n → hz < 2 ^ w →
    ((BitVec.ofNat n hz + BitVec.ofNat n 5000) / BitVec.ofNat n 10000).toNat = quotient hz) ∧
  ((BitVec.ofNat 32 4294967295 + 5000#32) / 10000#32).toNat % 2 ^ 16 = 0 ∧ (pcqCount 4294967295).toNat = 36281 ∧
  (∀ hz, hz < 2 ^ 32 → (2 ^ 32 ≤ hz + 5000 ↔ 4294962296 ≤ hz))

/-- R104: Q is not saturated; the count has period 655360000 Hz. -/
def Obligations.CountWrapsWithPeriod655360000 : Prop :=
  (∀ hz : Nat, pcqCount hz = BitVec.ofNat 16 (quotient hz) ∧ quotient (hz + 655360000) = quotient hz + 65536 ∧
    pcqCount hz = pcqCount (hz % 655360000)) ∧
  pcqCount 725110000 = 6975 ∧ pcqCount 694999990 = 0x0F7C ∧ pcqCount 1000000000 = 0x86A0

/-- R105: the extremes of the count. -/
def Obligations.ExtremesOfTheCount : Prop :=
  (∀ hz : Nat, hz ≤ 4999 → pcqCount hz = 0) ∧ (∀ hz : Nat, quotient hz < 65536 ↔ hz ≤ 655354999) ∧
  pcqCount 655354999 = 0xFFFF ∧
  (∀ hz : Nat, quotient hz = 65536 ↔ 655355000 ≤ hz ∧ hz ≤ 655364999) ∧
  (∀ hz : Nat, quotient hz = 65536 → pcqCount hz = 0) ∧ pcqCount 65536 = 7 ∧
  quotient 4294967295 = 429497 ∧ pcqCount 4294967295 = 0x8DB9

/-! ### The slicer -/

/-- R120: MASK keeps the low W bits, and nothing else changes. -/
def Obligations.MaskKeepsTheLowBits : Prop :=
  ∀ (w : MaskWidth) (v : Nat) (s : State), ∃ m : Nat, m = v % 2 ^ widthOf w ∧
    exec (.mask w v) s = .next { s with maskNet := some ⟨widthOf w, m⟩ } ∧
    (∀ i, m.testBit i = (decide (i < widthOf w) && v.testBit i)) ∧
    (v = 2 ^ widthOf w → m = 0) ∧ (v = 2 ^ widthOf w - 1 → m = 2 ^ widthOf w - 1) ∧ (v = 0 → m = 0)

/-- R121: SLICE extracts bits hi:lo for every hi ≥ lo, reading 0 above the value, and nothing else changes. -/
def Obligations.SliceExtractsTheBits : Prop :=
  ∀ (v hi lo : Nat) (s : State), lo ≤ hi → ∃ m : Nat, m = v / 2 ^ lo % 2 ^ (hi - lo + 1) ∧
    exec (.slice v hi lo) s = .next { s with sliceNet := some ⟨hi - lo + 1, m⟩ } ∧
    (∀ i, m.testBit i = (decide (lo + i ≤ hi) && v.testBit (lo + i))) ∧ (v < 2 ^ lo → m = 0)

/-- A SLICE with hi < lo is refused by name: R121 takes "hi ≥ lo" (the refusal is the model's, notes/assumptions/7.md). -/
def Obligations.SliceOutOfOrderIsRefused : Prop :=
  ∀ (v hi lo : Nat) (s : State), hi < lo → exec (.slice v hi lo) s = .refused .sliceOrder

/-- R122: masking before slicing changes nothing. -/
def Obligations.MaskBeforeSliceChangesNothing : Prop :=
  ∀ (v w hi lo : Nat), lo ≤ hi → hi < w → slice (mask w v) hi lo = slice v hi lo

/-- R123: the descriptor depends on every field but the pixel clock only modulo its width, so no port width and no reduction
to N ≥ W bits changes it; for the pixel clock a reduction does change it. -/
def Obligations.DescriptorIndependentOfPortWidth : Prop :=
  (∀ (c : Config) (P P' : TimingParameters), P.pixelClockHz = P'.pixelClockHz →
    (∀ f : Field, f ≠ .pixelClockHz → portValue P f % 2 ^ fieldWidth f = portValue P' f % 2 ^ fieldWidth f) →
    descriptor c P = descriptor c P') ∧
  (∀ (c : Config) (P : TimingParameters) (f : Field) (n v : Nat), f ≠ .pixelClockHz → fieldWidth f ≤ n →
    descriptor c (setPort P f (v % 2 ^ n)) = descriptor c (setPort P f v)) ∧
  (∀ (c : Config) (P : TimingParameters) (n m : Nat), descriptor { c with pclkInW := n, pInW := m } P = descriptor c P) ∧
  (∃ hz : Nat, pcqCount (hz % 2 ^ 32) ≠ pcqCount hz)

/-- R124: 2^W·k + x encodes identically to x in every field, and in Q for the pixel clock. -/
def Obligations.MaskingBoundaryOfEveryField : Prop :=
  (∀ (c : Config) (P : TimingParameters) (f : Field) (k x : Nat), f ≠ .pixelClockHz →
    descriptor c (setPort P f (2 ^ fieldWidth f * k + x)) = descriptor c (setPort P f x)) ∧
  (∀ (c : Config) (P : TimingParameters) (k hz hz' : Nat), quotient hz = 2 ^ 16 * k + quotient hz' →
    descriptor c { P with pixelClockHz := hz } = descriptor c { P with pixelClockHz := hz' })

/-! ### The packers -/

/-- R140: NIBPACK puts h in bits 7:4 and l in bits 3:0, and nothing else changes. -/
def Obligations.NibpackJoinsTwoNibbles : Prop :=
  ∀ (h l : Nibble) (s : State), ∃ b : Byte, b.extractLsb' 4 4 = h ∧ b.extractLsb' 0 4 = l ∧
    b.toNat = h.toNat * 2 ^ 4 + l.toNat ∧ exec (.nibpack h l) s = .next { s with nibNet := some b }

/-- R142: PAIRPACK puts its four pairs most significant first, and nothing else changes. -/
def Obligations.PairpackJoinsFourPairs : Prop :=
  ∀ (a b c d : Pair) (s : State), ∃ v : Byte, v.extractLsb' 6 2 = a ∧ v.extractLsb' 4 2 = b ∧ v.extractLsb' 2 2 = c ∧
    v.extractLsb' 0 2 = d ∧ v.toNat = a.toNat * 2 ^ 6 + b.toNat * 2 ^ 4 + c.toNat * 2 ^ 2 + d.toNat ∧
    exec (.pairpack a b c d) s = .next { s with pairNet := some v }

/-- R144: a field never carries into another: changing one field changes no output bit that is not its own. -/
def Obligations.NoFieldDisturbsAnother : Prop :=
  (∀ (c : Config) (P : TimingParameters) (f : Field) (v : Nat) (k : Fin 18) (i : Fin 8),
    (bitSource c.generalizeFlags k i).field ≠ some f →
    (descriptor c (setPort P f v))[k].getLsbD i.val = (descriptor c P)[k].getLsbD i.val) ∧
  (∀ (c : Config) (P : TimingParameters),
    ((descriptor c { P with vertFrontPorchLines := 0x3F })[10]).extractLsb' 4 4 = 0xF ∧
    ((descriptor c { P with vertFrontPorchLines := 0x3F })[11]).extractLsb' 2 2 = 0b11)

/-! ### The router -/

/-- R162, R163, R165, R166, R168, R169, R172, R173, R175, R176: the ten lanes that carry the low byte of one field; nothing
else changes. -/
def Obligations.LowByteLanes : Prop :=
  ∀ s : State,
    exec .lane2 s = .next { s with lanes := s.lanes.set 2 (some (BitVec.ofNat 8 (s.ports.horzAddrPx % 256))) } ∧
    exec .lane3 s = .next { s with lanes := s.lanes.set 3 (some (BitVec.ofNat 8 (s.ports.horzBlankPx % 256))) } ∧
    exec .lane5 s = .next { s with lanes := s.lanes.set 5 (some (BitVec.ofNat 8 (s.ports.vertAddrLines % 256))) } ∧
    exec .lane6 s = .next { s with lanes := s.lanes.set 6 (some (BitVec.ofNat 8 (s.ports.vertBlankLines % 256))) } ∧
    exec .lane8 s = .next { s with lanes := s.lanes.set 8 (some (BitVec.ofNat 8 (s.ports.horzFrontPorchPx % 256))) } ∧
    exec .lane9 s = .next { s with lanes := s.lanes.set 9 (some (BitVec.ofNat 8 (s.ports.horzSyncPulsePx % 256))) } ∧
    exec .lane12 s = .next { s with lanes := s.lanes.set 12 (some (BitVec.ofNat 8 (s.ports.horzImageMm % 256))) } ∧
    exec .lane13 s = .next { s with lanes := s.lanes.set 13 (some (BitVec.ofNat 8 (s.ports.vertImageMm % 256))) } ∧
    exec .lane15 s = .next { s with lanes := s.lanes.set 15 (some (BitVec.ofNat 8 (s.ports.horzBorderPx % 256))) } ∧
    exec .lane16 s = .next { s with lanes := s.lanes.set 16 (some (BitVec.ofNat 8 (s.ports.vertBorderLines % 256))) }

/-- R164, R167, R170, R174: the four lanes of two nibbles; nothing else changes. -/
def Obligations.NibbleLanes : Prop :=
  ∀ s : State,
    exec .lane4 s = .next { s with lanes := s.lanes.set 4 (some
      (BitVec.ofNat 4 (s.ports.horzAddrPx / 256 % 16) ++ BitVec.ofNat 4 (s.ports.horzBlankPx / 256 % 16))) } ∧
    exec .lane7 s = .next { s with lanes := s.lanes.set 7 (some
      (BitVec.ofNat 4 (s.ports.vertAddrLines / 256 % 16) ++ BitVec.ofNat 4 (s.ports.vertBlankLines / 256 % 16))) } ∧
    exec .lane10 s = .next { s with lanes := s.lanes.set 10 (some
      (BitVec.ofNat 4 (s.ports.vertFrontPorchLines % 16) ++ BitVec.ofNat 4 (s.ports.vertSyncPulseLines % 16))) } ∧
    exec .lane14 s = .next { s with lanes := s.lanes.set 14 (some
      (BitVec.ofNat 4 (s.ports.horzImageMm / 256 % 16) ++ BitVec.ofNat 4 (s.ports.vertImageMm / 256 % 16))) }

/-- R171, R143: lane 11, the byte of four pairs; nothing else changes. -/
def Obligations.PairLane : Prop :=
  ∀ s : State,
    exec .lane11 s = .next { s with lanes := s.lanes.set 11 (some
      (BitVec.ofNat 2 (s.ports.horzFrontPorchPx / 256 % 4) ++ BitVec.ofNat 2 (s.ports.horzSyncPulsePx / 256 % 4) ++
        BitVec.ofNat 2 (s.ports.vertFrontPorchLines / 16 % 4) ++ BitVec.ofNat 2 (s.ports.vertSyncPulseLines / 16 % 4))) }

/-- R160, R161: the two lanes of the count, with their corner cases; nothing else changes. -/
def Obligations.ClockLanes : Prop :=
  ∀ s : State, ∃ b0 b1 : Byte,
    exec .lane0 s = .next { s with lanes := s.lanes.set 0 (some b0) } ∧
    exec .lane1 s = .next { s with lanes := s.lanes.set 1 (some b1) } ∧
    b0.toNat = (s.ports.pixelClockHz + 5000) / 10000 % 256 ∧
    b1.toNat = (s.ports.pixelClockHz + 5000) / 10000 / 256 % 256 ∧
    (s.ports.pixelClockHz < 5000 → b0 = 0) ∧ (s.ports.pixelClockHz < 2555000 → b1 = 0)

/-- R177: the flags byte in each mode, by the table's row for that mode; nothing else changes. The modes agree whenever
`sync_flags` mod 256 is 0x1A. -/
def Obligations.FlagsLane : Prop :=
  (∀ s : State, s.cfg.generalizeFlags = false →
    exec .lane17 s = .next { s with lanes := s.lanes.set 17 (some 0x1A) }) ∧
  (∀ s : State, s.cfg.generalizeFlags = true →
    exec .lane17Gen s = .next { s with lanes := s.lanes.set 17 (some (BitVec.ofNat 8 (s.ports.syncFlags % 256))) }) ∧
  (∀ (c : Config) (P : TimingParameters), P.syncFlags % 256 = 0x1A → lane17Byte c P = 0x1A)

/-- Both rows of lane 17 are the one former of R177, in every configuration (the model's reading of the two rows,
notes/assumptions/5.md). -/
def Obligations.BothFlagsRowsFollowTheMode : Prop :=
  ∀ s : State, ∃ b : Byte, exec .lane17 s = .next { s with lanes := s.lanes.set 17 (some b) } ∧
    exec .lane17Gen s = .next { s with lanes := s.lanes.set 17 (some b) } ∧
    b = if s.cfg.generalizeFlags then BitVec.ofNat 8 (s.ports.syncFlags % 256) else 0x1A

/-- ENCODE also settles the report of the same transaction, where VALIDATE = 1; elsewhere it has no value (the model's reading
of R22 and R31, notes/assumptions/8.md). -/
def Obligations.EncodeDrivesTheReportToo : Prop :=
  ∀ s : State, ∃ t, exec .encode s = .next t ∧ t.oor = if s.cfg.validate then some (oorOf s.cfg s.ports) else none

/-- R180: ENCODE drives every lane by its rule, from the record at the ports alone, and never faults; the only other output
it drives is the report. -/
def Obligations.EncodeDrivesEveryLane : Prop :=
  ∀ s : State, ∃ (q : Count) (d : Descriptor) (report : Option OorVec),
    exec .encode s = .next { s with
      lanes := Vector.ofFn fun k => some d[k]
      oor := report } ∧
    q = BitVec.ofNat 16 ((s.ports.pixelClockHz + 5000) / 10000 % 2 ^ 16) ∧
    d = #v[q.extractLsb' 0 8, q.extractLsb' 8 8, BitVec.ofNat 8 s.ports.horzAddrPx, BitVec.ofNat 8 s.ports.horzBlankPx,
      BitVec.ofNat 4 (s.ports.horzAddrPx >>> 8) ++ BitVec.ofNat 4 (s.ports.horzBlankPx >>> 8),
      BitVec.ofNat 8 s.ports.vertAddrLines, BitVec.ofNat 8 s.ports.vertBlankLines,
      BitVec.ofNat 4 (s.ports.vertAddrLines >>> 8) ++ BitVec.ofNat 4 (s.ports.vertBlankLines >>> 8),
      BitVec.ofNat 8 s.ports.horzFrontPorchPx, BitVec.ofNat 8 s.ports.horzSyncPulsePx,
      BitVec.ofNat 4 s.ports.vertFrontPorchLines ++ BitVec.ofNat 4 s.ports.vertSyncPulseLines,
      BitVec.ofNat 2 (s.ports.horzFrontPorchPx >>> 8) ++ BitVec.ofNat 2 (s.ports.horzSyncPulsePx >>> 8) ++
        BitVec.ofNat 2 (s.ports.vertFrontPorchLines >>> 4) ++ BitVec.ofNat 2 (s.ports.vertSyncPulseLines >>> 4),
      BitVec.ofNat 8 s.ports.horzImageMm, BitVec.ofNat 8 s.ports.vertImageMm,
      BitVec.ofNat 4 (s.ports.horzImageMm >>> 8) ++ BitVec.ofNat 4 (s.ports.vertImageMm >>> 8),
      BitVec.ofNat 8 s.ports.horzBorderPx, BitVec.ofNat 8 s.ports.vertBorderLines,
      if s.cfg.generalizeFlags then BitVec.ofNat 8 s.ports.syncFlags else 0x1A]

/-- The fixed datapath of R61 composes: lane operations in any order and any number form exactly the lanes they name, each as
ENCODE forms it, so that all of them together form ENCODE's descriptor. That a flags row of the other mode (LANE17_GEN with
GENERALIZE_FLAGS = 0, LANE17 with 1) follows the mode is the model's reading (notes/assumptions/5.md). -/
def Obligations.LaneOperationsComposeToEncode : Prop :=
  ∀ (is : List Instr) (s : State), (∀ i ∈ is, laneOf i ≠ none) → ∃ t, execAll is s = .next t ∧
    (∀ k : Fin 18, ((∃ i ∈ is, laneOf i = some k) → t.lanes[k] = some (descriptor s.cfg s.ports)[k]) ∧
      ((∀ i ∈ is, laneOf i ≠ some k) → t.lanes[k] = s.lanes[k])) ∧
    t = { s with lanes := t.lanes } ∧
    ((∀ k : Fin 18, ∃ i ∈ is, laneOf i = some k) → ∃ u, exec .encode s = .next u ∧ t.lanes = u.lanes)

/-! ### The out-of-range check -/

/-- R201: VALIDATE's report, bit by bit, where VALIDATE = 1; nothing else changes. -/
def Obligations.ValidateReportsEachField : Prop :=
  ∀ s : State, s.cfg.validate = true → ∃ v : OorVec, exec .validate s = .next { s with oor := some v } ∧
    v.getLsbD 0 = decide (655355000 ≤ s.ports.pixelClockHz) ∧
    v.getLsbD 0 = decide (2 ^ 16 ≤ (s.ports.pixelClockHz + 5000) / 10000) ∧
    (∀ f : Field, f ≠ .pixelClockHz → f ≠ .syncFlags →
      v.getLsbD (fieldIndex f).val = decide (2 ^ fieldWidth f ≤ portValue s.ports f)) ∧
    v.getLsbD 13 = (s.cfg.generalizeFlags && decide (2 ^ 8 ≤ s.ports.syncFlags))

/-- Where VALIDATE = 0 the port is absent and no result is observed, as R200 says. That the operation VALIDATE runs there and
leaves the report without a value is the model's reading (notes/assumptions/9.md). -/
def Obligations.WithoutValidateNothingIsReported : Prop :=
  ∀ s : State, s.cfg.validate = false → exec .validate s = .next { s with oor := none } ∧
    s.readOor = .error .portAbsent

/-- The descriptor is the same whether VALIDATE is 0 or 1 and whatever `oor` holds, as R202 says. That the operation VALIDATE
also answers a next state where VALIDATE = 0 (the last clause) is the model's reading (notes/assumptions/9.md). -/
def Obligations.ValidateNeverChangesTheDescriptor : Prop :=
  ∀ (s : State) (v : Bool) (o : Option OorVec), ∃ t u, exec .encode s = .next t ∧
    exec .encode { s with cfg := { s.cfg with validate := v }, oor := o } = .next u ∧ u.lanes = t.lanes ∧
    (∀ k : Fin 18, t.lanes[k] = some (descriptor s.cfg s.ports)[k]) ∧
    ∃ w, exec .validate t = .next w ∧ w.lanes = t.lanes

/-- R203: every out-of-range field is reported in its own bit, and no field hides another. -/
def Obligations.EachFieldReportsInItsOwnBit : Prop :=
  ∀ (c : Config) (P : TimingParameters) (f g : Field) (v : Nat),
    (oorOf c P).getLsbD (fieldIndex f).val = outOfRange c P f ∧
    (g ≠ f → (oorOf c (setPort P g v)).getLsbD (fieldIndex f).val = (oorOf c P).getLsbD (fieldIndex f).val)

/-- The report is exactly truncation (R200: "the field's value does not fit its descriptor width and is about to be
truncated"): where every field is placed, `oor` is 0 just when UNPACK of the descriptor gives every field back. -/
def Obligations.ReportIsExactlyTruncation : Prop :=
  ∀ (c : Config) (P : TimingParameters), c.generalizeFlags = true →
    (oorOf c P = 0 ↔ (unpackCount (descriptor c P)).toNat = quotient P.pixelClockHz ∧
      ∀ f : Field, f ≠ .pixelClockHz → portValue (unpack (descriptor c P)) f = portValue P f)

/-! ### Faults, frames and the step -/

/-- R221, R222: the length check faults exactly on a length other than 18, ENCODE always passes it, and no operation and no
step raises any exception. -/
def Obligations.NoInputRaisesAnyException : Prop :=
  (∀ bs : List Byte, checkLength bs = .error .lengthFault ↔ bs.length ≠ 18) ∧
  (∀ (c : Config) (P : TimingParameters), checkLength (encodeBytes c P) = .ok (descriptor c P)) ∧
  (∀ (i : Instr) (s : State) (f : Fault), exec i s ≠ .fault f) ∧ (∀ (s : State) (f : Fault), step s ≠ .fault f)

/-- The frame of every operation (R20, R49): the configuration, the ports, the wrapper's registers and the pending beats are
unchanged, no lane outside those the operation drives changes, and each result is changed by its own operation only. -/
def Obligations.OperationsChangeOnlyTheirOutputs : Prop :=
  ∀ (i : Instr) (s t : State), exec i s = .next t →
    (t.cfg = s.cfg ∧ t.ports = s.ports ∧ t.outValidQ = s.outValidQ ∧ t.dtdQ = s.dtdQ ∧ t.oorQ = s.oorQ ∧
      t.resetSeen = s.resetSeen ∧ t.inputs = s.inputs) ∧
    (∀ k : Fin 18, drives i k = false → t.lanes[k] = s.lanes[k]) ∧
    (i ≠ .encode → i ≠ .validate → t.oor = s.oor) ∧ (i ≠ .pcq → t.qNet = s.qNet) ∧
    ((∀ w v, i ≠ .mask w v) → t.maskNet = s.maskNet) ∧ ((∀ v hi lo, i ≠ .slice v hi lo) → t.sliceNet = s.sliceNet) ∧
    ((∀ h l, i ≠ .nibpack h l) → t.nibNet = s.nibNet) ∧ ((∀ a b c d, i ≠ .pairpack a b c d) → t.pairNet = s.pairNet)

/-- A step runs the decoded operation: the record is presented, the operation is executed, and in the wrapper the edge that
accepts the record is taken (R21, R29, R31; the words are the model's, notes/assumptions/2.md). -/
def Obligations.StepRunsTheDecodedOperation : Prop :=
  ∀ (s : State) (b : Beat) (rest : List Beat) (i : Instr) (P : TimingParameters), s.inputs = b :: rest →
    (s.cfg.wrapper = true → b.rst = false ∧ b.inValid = true) → decode s.cfg b.word = .ok (i, P) →
    ∃ t, exec i ((s.withInputs rest).present P) = .next t ∧ step s = .next (t.clockEdge false true) ∧
      (s.cfg.wrapper = false → step s = .next t)

/-- R60: every record the ports carry, with every well-formed operation, is accepted and runs; none is rejected. -/
def Obligations.EveryRecordIsAccepted : Prop :=
  ∀ (s : State) (i : Instr) (P : TimingParameters) (rest : List Beat), P.fits s.cfg → i.wf s.cfg →
    s.inputs = beatOf s.cfg i P :: rest → ∃ t, step s = .next t ∧ t.ports = P ∧ t.inputs = rest ∧
      (i = .encode → s.Observable → t.readDtd = .ok (descriptor s.cfg P))

/-- R23: the configuration is fixed at elaboration: no step changes it. That it stands in State is the model's choice
(notes/assumptions/1.md). -/
def Obligations.NoStepChangesTheConfiguration : Prop :=
  ∀ s t : State, step s = .next t → t.cfg = s.cfg

/-- With nothing presented, a step of the core changes nothing and a step of the wrapper is an edge with `in_valid` = 0 (the
model's choice, notes/assumptions/6.md); before the first reset edge no register has a value after it (R253). -/
def Obligations.IdleStepAcceptsNothing : Prop :=
  ∀ s : State, s.inputs = [] →
    (s.cfg.wrapper = false → step s = .next s) ∧
    (s.cfg.wrapper = true → s.resetSeen = true → step s = .next { s with outValidQ := some false }) ∧
    (s.cfg.wrapper = true → s.resetSeen = false → step s = .next { s with outValidQ := none, dtdQ := none, oorQ := none })

/-! ### Words and the invariant -/

/-- Words written out from the spec: the port bundle of program P1 (spec/95 section 7) is the reference record, and its
descriptor is the corrected one of spec/90 C1. -/
def Obligations.ReferenceBundleDecodes : Prop :=
  decode Config.default [0x00, 0xF0, 0x4C, 0x28, 0x04, 0x80, 0x04, 0xA0, 0x00, 0x60, 0x03, 0x19, 0x00, 0x30, 0x00, 0x20, 0x00,
    0x03, 0x00, 0x04, 0x00, 0x00, 0x00, 0x00, 0x00, 0x00, 0x00, 0x00, 0x00, 0x1A, 0x00] =
    .ok (.encode, ⟨69750000, 1152, 160, 864, 25, 48, 32, 3, 4, 0, 0, 0, 0, 0x1A⟩) ∧
  descriptor Config.default ⟨69750000, 1152, 160, 864, 25, 48, 32, 3, 4, 0, 0, 0, 0, 0x1A⟩ =
    #v[0x3F, 0x1B, 0x80, 0xA0, 0x40, 0x60, 0x19, 0x30, 0x30, 0x20, 0x34, 0, 0, 0, 0, 0, 0, 0x1A] ∧
  (∀ rest : List Byte, decodeOp Config.default (0x04 :: 0xA1 :: rest) = .ok (.nibpack 0xA 0x1, rest)) ∧
  (∀ rest : List Byte, decodeOp Config.default (0x05 :: 0b10010011 :: rest) = .ok (.pairpack 2 1 0 3, rest))

/-- Decoding an encoded transaction gives it back: every well-formed operation with every operand, and every record the ports
carry, under every configuration. The words are the model's (notes/assumptions/2.md). -/
def Obligations.DecodeOfEncodeIsTheTransaction : Prop :=
  ∀ (c : Config) (i : Instr) (P : TimingParameters), i.wf c → P.fits c → decode c (encode c i P) = .ok (i, P)

/-- Every transaction word has one meaning: what decodes is well formed, and encodes to exactly the word it came from.
The words are the model's (notes/assumptions/2.md). -/
def Obligations.EveryAcceptedWordIsAnEncoding : Prop :=
  ∀ (c : Config) (bs : List Byte) (i : Instr) (P : TimingParameters), decode c bs = .ok (i, P) →
    i.wf c ∧ P.fits c ∧ encode c i P = bs

/-- Every step keeps the outputs consistent with the record at the ports. Until the first reset
edge that is no value in any register (R253). -/
def Obligations.StepKeepsTheOutputsConsistent : Prop :=
  ∀ s t : State, s.Consistent → step s = .next t → t.Consistent

/-- The outputs are consistent right after reset and at power-up, under every configuration; the record at the ports there is
the model's choice (notes/assumptions/4.md). -/
def Obligations.ResetAndPowerUpAreConsistent : Prop :=
  (∀ c : Config, (State.resetWith c).Consistent ∧ (State.powerUp c).Consistent) ∧ State.reset.Consistent
end

