-- ==== Sys2Proof/Laws/Bits.lean ====
section
/-!
SUPPORT. What the operand forms and the packers do, bit by bit: one lemma per function, cited by later proofs instead of
unfolding it.
-/

namespace Sys2Proof.Machine

theorem mask_testBit (w v i : Nat) : (mask w v).testBit i = (decide (i < w) && v.testBit i) := by
  simp [mask, Nat.testBit_mod_two_pow]

theorem mask_lt (w v : Nat) : mask w v < 2 ^ w := Nat.mod_lt _ (Nat.two_pow_pos w)

theorem slice_testBit (v hi lo i : Nat) :
    (slice v hi lo).testBit i = (decide (i < hi - lo + 1) && v.testBit (lo + i)) := by
  simp [slice, Nat.testBit_mod_two_pow, Nat.testBit_div_two_pow, Nat.add_comm]

theorem slice_lt (v hi lo : Nat) : slice v hi lo < 2 ^ (hi - lo + 1) := Nat.mod_lt _ (Nat.two_pow_pos _)

theorem low8_getLsbD (v i : Nat) : (low8 v).getLsbD i = (decide (i < 8) && v.testBit i) := by
  simp only [low8, BitVec.getLsbD_ofNat, slice_testBit]; grind

theorem high8_getLsbD (v i : Nat) : (high8 v).getLsbD i = (decide (i < 8) && v.testBit (8 + i)) := by
  simp only [high8, BitVec.getLsbD_ofNat, slice_testBit]; grind

theorem high4_getLsbD (v i : Nat) : (high4 v).getLsbD i = (decide (i < 4) && v.testBit (8 + i)) := by
  simp only [high4, BitVec.getLsbD_ofNat, slice_testBit]; grind

theorem low4_getLsbD (v i : Nat) : (low4 v).getLsbD i = (decide (i < 4) && v.testBit i) := by
  simp only [low4, BitVec.getLsbD_ofNat, slice_testBit]; grind

theorem bits9to8_getLsbD (v i : Nat) : (bits9to8 v).getLsbD i = (decide (i < 2) && v.testBit (8 + i)) := by
  simp only [bits9to8, BitVec.getLsbD_ofNat, slice_testBit]; grind

theorem bits5to4_getLsbD (v i : Nat) : (bits5to4 v).getLsbD i = (decide (i < 2) && v.testBit (4 + i)) := by
  simp only [bits5to4, BitVec.getLsbD_ofNat, slice_testBit]; grind

theorem low8_eq (v : Nat) : low8 v = BitVec.ofNat 8 v := by
  apply BitVec.eq_of_getLsbD_eq; intro i hi; simp [low8_getLsbD, BitVec.getLsbD_ofNat]

theorem nibpack_eq_append (h l : Nibble) : nibpack h l = h ++ l := by revert h l; decide

theorem pairpack_eq_append (a b c d : Pair) : pairpack a b c d = a ++ b ++ c ++ d := by revert a b c d; decide

theorem nibpack_getLsbD (h l : Nibble) (i : Nat) :
    (nibpack h l).getLsbD i = if i < 4 then l.getLsbD i else h.getLsbD (i - 4) := by
  rw [nibpack_eq_append]; exact BitVec.getLsbD_append

theorem pairpack_getLsbD (a b c d : Pair) (i : Nat) :
    (pairpack a b c d).getLsbD i =
      if i < 2 then d.getLsbD i else if i < 4 then c.getLsbD (i - 2) else if i < 6 then b.getLsbD (i - 4)
      else a.getLsbD (i - 6) := by
  rw [pairpack_eq_append]
  have h1 : (a ++ b ++ c ++ d).getLsbD i = _ := BitVec.getLsbD_append
  have h2 : (a ++ b ++ c).getLsbD (i - 2) = _ := BitVec.getLsbD_append
  have h3 : (a ++ b).getLsbD (i - 2 - 2) = _ := BitVec.getLsbD_append
  rw [h1, h2, h3]
  grind

theorem low8_count (q : Count) : low8 q.toNat = q.extractLsb' 0 8 := by
  apply BitVec.eq_of_getLsbD_eq; intro i hi
  rw [low8_getLsbD, BitVec.getLsbD_extractLsb']; simp [BitVec.getLsbD]

theorem high8_count (q : Count) : high8 q.toNat = q.extractLsb' 8 8 := by
  apply BitVec.eq_of_getLsbD_eq; intro i hi
  rw [high8_getLsbD, BitVec.getLsbD_extractLsb']; simp [BitVec.getLsbD]

theorem high4_eq (v : Nat) : high4 v = BitVec.ofNat 4 (v / 256) := by
  apply BitVec.eq_of_toNat_eq; simp only [high4, slice, BitVec.toNat_ofNat]; omega

theorem low4_eq (v : Nat) : low4 v = BitVec.ofNat 4 v := by
  apply BitVec.eq_of_toNat_eq; simp only [low4, slice, BitVec.toNat_ofNat]; omega

theorem bits9to8_eq (v : Nat) : bits9to8 v = BitVec.ofNat 2 (v / 256) := by
  apply BitVec.eq_of_toNat_eq; simp only [bits9to8, slice, BitVec.toNat_ofNat]; omega

theorem bits5to4_eq (v : Nat) : bits5to4 v = BitVec.ofNat 2 (v / 16) := by
  apply BitVec.eq_of_toNat_eq; simp only [bits5to4, slice, BitVec.toNat_ofNat]; omega

theorem numberOf_lt (bs : List Byte) : numberOf bs < 2 ^ (8 * bs.length) := by
  induction bs with
  | nil => simp [numberOf]
  | cons b bs ih =>
    have := b.isLt
    have e : 2 ^ (8 * (b :: bs).length) = 256 * 2 ^ (8 * bs.length) := by
      rw [List.length_cons, Nat.mul_add, Nat.pow_add, Nat.mul_comm]
    simp only [numberOf, e]
    omega

/-- Byte k of a number has significance 2^(8k). -/
theorem numberOf_byte (bs : List Byte) (k : Nat) (h : k < bs.length) :
    BitVec.ofNat 8 (numberOf bs / 2 ^ (8 * k)) = bs[k] := by
  induction bs generalizing k with
  | nil => simp at h
  | cons b bs ih =>
    have hb := b.isLt
    cases k with
    | zero =>
      apply BitVec.eq_of_toNat_eq
      simp only [numberOf, BitVec.toNat_ofNat, Nat.mul_zero, Nat.pow_zero, Nat.div_one, List.getElem_cons_zero]
      omega
    | succ k =>
      have e : numberOf (b :: bs) / 2 ^ (8 * (k + 1)) = numberOf bs / 2 ^ (8 * k) := by
        rw [Nat.mul_add, Nat.pow_add, Nat.mul_comm (2 ^ (8 * k)), ← Nat.div_div_eq_div_mul]
        congr 1
        simp only [numberOf]
        omega
      rw [e]
      simpa using ih k (by simpa using h)

theorem numberOf_ofFn (n : Nat) (f : Fin n → Byte) :
    numberOf (List.ofFn f) = ∑ k : Fin n, (f k).toNat * 2 ^ (8 * k.val) := by
  induction n with
  | zero => simp [numberOf]
  | succ n ih =>
    rw [List.ofFn_succ, Fin.sum_univ_succ, numberOf, ih, Finset.mul_sum]
    simp only [Fin.val_zero, Nat.mul_zero, Nat.pow_zero, Nat.mul_one, Fin.val_succ, Nat.mul_add, Nat.pow_add]
    congr 1
    exact Finset.sum_congr rfl fun k _ => by ring

theorem packed_toNat (d : Descriptor) : (packed d).toNat = numberOf d.toList := by
  rw [packed, BitVec.toNat_ofNat]
  exact Nat.mod_eq_of_lt (by simpa using numberOf_lt d.toList)

/-- A descriptor is read back from its packed vector (R41). -/
theorem descriptorOf_packed (d : Descriptor) : descriptorOf (packed d).toNat = d := by
  apply Vector.ext
  intro k hk
  have h := numberOf_byte d.toList k (by simpa using hk)
  rw [Vector.getElem_toList] at h
  simpa [descriptorOf, packed_toNat] using h

theorem pcqCount_eq (hz : Nat) : pcqCount hz = BitVec.ofNat 16 (quotient hz) := by
  apply BitVec.eq_of_getLsbD_eq; intro i hi; simp only [pcqCount, BitVec.getLsbD_ofNat, mask_testBit]; grind

theorem pcqCount_toNat (hz : Nat) : (pcqCount hz).toNat = quotient hz % 65536 := by
  simp [pcqCount_eq]

@[simp] theorem portValue_setPort_same (P : TimingParameters) (f : Field) (v : Nat) :
    portValue (setPort P f v) f = v := by cases f <;> rfl

theorem portValue_setPort_other (P : TimingParameters) (f g : Field) (v : Nat) (h : g ≠ f) :
    portValue (setPort P f v) g = portValue P g := by
  cases f <;> cases g <;> first | rfl | exact absurd rfl h

/-- Two records with the same port values are the same record. -/
theorem record_ext (P P' : TimingParameters) (h : ∀ f, portValue P f = portValue P' f) : P = P' := by
  have := h .pixelClockHz; have := h .horzAddrPx; have := h .horzBlankPx; have := h .vertAddrLines
  have := h .vertBlankLines; have := h .horzFrontPorchPx; have := h .horzSyncPulsePx
  have := h .vertFrontPorchLines; have := h .vertSyncPulseLines; have := h .horzImageMm
  have := h .vertImageMm; have := h .horzBorderPx; have := h .vertBorderLines; have := h .syncFlags
  cases P; cases P'; simp_all [portValue]

end Sys2Proof.Machine
end

