-- ==== Sys2Proof/Laws/State.lean ====
section
/-!
SUPPORT. One lemma per field per update of the state.
-/

namespace Sys2Proof.Machine

section Updates

variable (s : State)

@[simp] theorem State.setLane_cfg (k : Nat) (v : Byte) (h : k < 18) : (s.setLane k v h).cfg = s.cfg := rfl
@[simp] theorem State.setLane_ports (k : Nat) (v : Byte) (h : k < 18) : (s.setLane k v h).ports = s.ports := rfl
@[simp] theorem State.setLane_lanes (k : Nat) (v : Byte) (h : k < 18) :
    (s.setLane k v h).lanes = s.lanes.set k (some v) h := rfl
@[simp] theorem State.setLane_oor (k : Nat) (v : Byte) (h : k < 18) : (s.setLane k v h).oor = s.oor := rfl
@[simp] theorem State.setLane_qNet (k : Nat) (v : Byte) (h : k < 18) : (s.setLane k v h).qNet = s.qNet := rfl
@[simp] theorem State.setLane_maskNet (k : Nat) (v : Byte) (h : k < 18) : (s.setLane k v h).maskNet = s.maskNet := rfl
@[simp] theorem State.setLane_sliceNet (k : Nat) (v : Byte) (h : k < 18) : (s.setLane k v h).sliceNet = s.sliceNet := rfl
@[simp] theorem State.setLane_nibNet (k : Nat) (v : Byte) (h : k < 18) : (s.setLane k v h).nibNet = s.nibNet := rfl
@[simp] theorem State.setLane_pairNet (k : Nat) (v : Byte) (h : k < 18) : (s.setLane k v h).pairNet = s.pairNet := rfl
@[simp] theorem State.setLane_outValidQ (k : Nat) (v : Byte) (h : k < 18) : (s.setLane k v h).outValidQ = s.outValidQ := rfl
@[simp] theorem State.setLane_dtdQ (k : Nat) (v : Byte) (h : k < 18) : (s.setLane k v h).dtdQ = s.dtdQ := rfl
@[simp] theorem State.setLane_oorQ (k : Nat) (v : Byte) (h : k < 18) : (s.setLane k v h).oorQ = s.oorQ := rfl
@[simp] theorem State.setLane_resetSeen (k : Nat) (v : Byte) (h : k < 18) : (s.setLane k v h).resetSeen = s.resetSeen := rfl
@[simp] theorem State.setLane_inputs (k : Nat) (v : Byte) (h : k < 18) : (s.setLane k v h).inputs = s.inputs := rfl

@[simp] theorem State.setLanes_cfg (d : Descriptor) : (s.setLanes d).cfg = s.cfg := by simp only [State.setLanes]
@[simp] theorem State.setLanes_ports (d : Descriptor) : (s.setLanes d).ports = s.ports := by simp only [State.setLanes]
@[simp] theorem State.setLanes_lanes (d : Descriptor) : (s.setLanes d).lanes = Vector.ofFn fun k => some d[k] := by simp only [State.setLanes]
@[simp] theorem State.setLanes_oor (d : Descriptor) : (s.setLanes d).oor = s.oor := by simp only [State.setLanes]
@[simp] theorem State.setLanes_qNet (d : Descriptor) : (s.setLanes d).qNet = s.qNet := by simp only [State.setLanes]
@[simp] theorem State.setLanes_maskNet (d : Descriptor) : (s.setLanes d).maskNet = s.maskNet := by simp only [State.setLanes]
@[simp] theorem State.setLanes_sliceNet (d : Descriptor) : (s.setLanes d).sliceNet = s.sliceNet := by simp only [State.setLanes]
@[simp] theorem State.setLanes_nibNet (d : Descriptor) : (s.setLanes d).nibNet = s.nibNet := by simp only [State.setLanes]
@[simp] theorem State.setLanes_pairNet (d : Descriptor) : (s.setLanes d).pairNet = s.pairNet := by simp only [State.setLanes]
@[simp] theorem State.setLanes_outValidQ (d : Descriptor) : (s.setLanes d).outValidQ = s.outValidQ := by simp only [State.setLanes]
@[simp] theorem State.setLanes_dtdQ (d : Descriptor) : (s.setLanes d).dtdQ = s.dtdQ := by simp only [State.setLanes]
@[simp] theorem State.setLanes_oorQ (d : Descriptor) : (s.setLanes d).oorQ = s.oorQ := by simp only [State.setLanes]
@[simp] theorem State.setLanes_resetSeen (d : Descriptor) : (s.setLanes d).resetSeen = s.resetSeen := by simp only [State.setLanes]
@[simp] theorem State.setLanes_inputs (d : Descriptor) : (s.setLanes d).inputs = s.inputs := by simp only [State.setLanes]

@[simp] theorem State.setOor_cfg (v : OorVec) : (s.setOor v).cfg = s.cfg := rfl
@[simp] theorem State.setOor_ports (v : OorVec) : (s.setOor v).ports = s.ports := rfl
@[simp] theorem State.setOor_lanes (v : OorVec) : (s.setOor v).lanes = s.lanes := rfl
@[simp] theorem State.setOor_oor (v : OorVec) : (s.setOor v).oor = if s.cfg.validate then some v else none := rfl
@[simp] theorem State.setOor_qNet (v : OorVec) : (s.setOor v).qNet = s.qNet := rfl
@[simp] theorem State.setOor_maskNet (v : OorVec) : (s.setOor v).maskNet = s.maskNet := rfl
@[simp] theorem State.setOor_sliceNet (v : OorVec) : (s.setOor v).sliceNet = s.sliceNet := rfl
@[simp] theorem State.setOor_nibNet (v : OorVec) : (s.setOor v).nibNet = s.nibNet := rfl
@[simp] theorem State.setOor_pairNet (v : OorVec) : (s.setOor v).pairNet = s.pairNet := rfl
@[simp] theorem State.setOor_outValidQ (v : OorVec) : (s.setOor v).outValidQ = s.outValidQ := rfl
@[simp] theorem State.setOor_dtdQ (v : OorVec) : (s.setOor v).dtdQ = s.dtdQ := rfl
@[simp] theorem State.setOor_oorQ (v : OorVec) : (s.setOor v).oorQ = s.oorQ := rfl
@[simp] theorem State.setOor_resetSeen (v : OorVec) : (s.setOor v).resetSeen = s.resetSeen := rfl
@[simp] theorem State.setOor_inputs (v : OorVec) : (s.setOor v).inputs = s.inputs := rfl

@[simp] theorem State.setQ_cfg (q : Count) : (s.setQ q).cfg = s.cfg := rfl
@[simp] theorem State.setQ_ports (q : Count) : (s.setQ q).ports = s.ports := rfl
@[simp] theorem State.setQ_lanes (q : Count) : (s.setQ q).lanes = s.lanes := rfl
@[simp] theorem State.setQ_oor (q : Count) : (s.setQ q).oor = s.oor := rfl
@[simp] theorem State.setQ_qNet (q : Count) : (s.setQ q).qNet = some q := rfl
@[simp] theorem State.setQ_maskNet (q : Count) : (s.setQ q).maskNet = s.maskNet := rfl
@[simp] theorem State.setQ_sliceNet (q : Count) : (s.setQ q).sliceNet = s.sliceNet := rfl
@[simp] theorem State.setQ_nibNet (q : Count) : (s.setQ q).nibNet = s.nibNet := rfl
@[simp] theorem State.setQ_pairNet (q : Count) : (s.setQ q).pairNet = s.pairNet := rfl
@[simp] theorem State.setQ_outValidQ (q : Count) : (s.setQ q).outValidQ = s.outValidQ := rfl
@[simp] theorem State.setQ_dtdQ (q : Count) : (s.setQ q).dtdQ = s.dtdQ := rfl
@[simp] theorem State.setQ_oorQ (q : Count) : (s.setQ q).oorQ = s.oorQ := rfl
@[simp] theorem State.setQ_resetSeen (q : Count) : (s.setQ q).resetSeen = s.resetSeen := rfl
@[simp] theorem State.setQ_inputs (q : Count) : (s.setQ q).inputs = s.inputs := rfl

@[simp] theorem State.setMask_cfg (n : Net) : (s.setMask n).cfg = s.cfg := rfl
@[simp] theorem State.setMask_ports (n : Net) : (s.setMask n).ports = s.ports := rfl
@[simp] theorem State.setMask_lanes (n : Net) : (s.setMask n).lanes = s.lanes := rfl
@[simp] theorem State.setMask_oor (n : Net) : (s.setMask n).oor = s.oor := rfl
@[simp] theorem State.setMask_qNet (n : Net) : (s.setMask n).qNet = s.qNet := rfl
@[simp] theorem State.setMask_maskNet (n : Net) : (s.setMask n).maskNet = some n := rfl
@[simp] theorem State.setMask_sliceNet (n : Net) : (s.setMask n).sliceNet = s.sliceNet := rfl
@[simp] theorem State.setMask_nibNet (n : Net) : (s.setMask n).nibNet = s.nibNet := rfl
@[simp] theorem State.setMask_pairNet (n : Net) : (s.setMask n).pairNet = s.pairNet := rfl
@[simp] theorem State.setMask_outValidQ (n : Net) : (s.setMask n).outValidQ = s.outValidQ := rfl
@[simp] theorem State.setMask_dtdQ (n : Net) : (s.setMask n).dtdQ = s.dtdQ := rfl
@[simp] theorem State.setMask_oorQ (n : Net) : (s.setMask n).oorQ = s.oorQ := rfl
@[simp] theorem State.setMask_resetSeen (n : Net) : (s.setMask n).resetSeen = s.resetSeen := rfl
@[simp] theorem State.setMask_inputs (n : Net) : (s.setMask n).inputs = s.inputs := rfl

@[simp] theorem State.setSlice_cfg (n : Net) : (s.setSlice n).cfg = s.cfg := rfl
@[simp] theorem State.setSlice_ports (n : Net) : (s.setSlice n).ports = s.ports := rfl
@[simp] theorem State.setSlice_lanes (n : Net) : (s.setSlice n).lanes = s.lanes := rfl
@[simp] theorem State.setSlice_oor (n : Net) : (s.setSlice n).oor = s.oor := rfl
@[simp] theorem State.setSlice_qNet (n : Net) : (s.setSlice n).qNet = s.qNet := rfl
@[simp] theorem State.setSlice_maskNet (n : Net) : (s.setSlice n).maskNet = s.maskNet := rfl
@[simp] theorem State.setSlice_sliceNet (n : Net) : (s.setSlice n).sliceNet = some n := rfl
@[simp] theorem State.setSlice_nibNet (n : Net) : (s.setSlice n).nibNet = s.nibNet := rfl
@[simp] theorem State.setSlice_pairNet (n : Net) : (s.setSlice n).pairNet = s.pairNet := rfl
@[simp] theorem State.setSlice_outValidQ (n : Net) : (s.setSlice n).outValidQ = s.outValidQ := rfl
@[simp] theorem State.setSlice_dtdQ (n : Net) : (s.setSlice n).dtdQ = s.dtdQ := rfl
@[simp] theorem State.setSlice_oorQ (n : Net) : (s.setSlice n).oorQ = s.oorQ := rfl
@[simp] theorem State.setSlice_resetSeen (n : Net) : (s.setSlice n).resetSeen = s.resetSeen := rfl
@[simp] theorem State.setSlice_inputs (n : Net) : (s.setSlice n).inputs = s.inputs := rfl

@[simp] theorem State.setNib_cfg (b : Byte) : (s.setNib b).cfg = s.cfg := rfl
@[simp] theorem State.setNib_ports (b : Byte) : (s.setNib b).ports = s.ports := rfl
@[simp] theorem State.setNib_lanes (b : Byte) : (s.setNib b).lanes = s.lanes := rfl
@[simp] theorem State.setNib_oor (b : Byte) : (s.setNib b).oor = s.oor := rfl
@[simp] theorem State.setNib_qNet (b : Byte) : (s.setNib b).qNet = s.qNet := rfl
@[simp] theorem State.setNib_maskNet (b : Byte) : (s.setNib b).maskNet = s.maskNet := rfl
@[simp] theorem State.setNib_sliceNet (b : Byte) : (s.setNib b).sliceNet = s.sliceNet := rfl
@[simp] theorem State.setNib_nibNet (b : Byte) : (s.setNib b).nibNet = some b := rfl
@[simp] theorem State.setNib_pairNet (b : Byte) : (s.setNib b).pairNet = s.pairNet := rfl
@[simp] theorem State.setNib_outValidQ (b : Byte) : (s.setNib b).outValidQ = s.outValidQ := rfl
@[simp] theorem State.setNib_dtdQ (b : Byte) : (s.setNib b).dtdQ = s.dtdQ := rfl
@[simp] theorem State.setNib_oorQ (b : Byte) : (s.setNib b).oorQ = s.oorQ := rfl
@[simp] theorem State.setNib_resetSeen (b : Byte) : (s.setNib b).resetSeen = s.resetSeen := rfl
@[simp] theorem State.setNib_inputs (b : Byte) : (s.setNib b).inputs = s.inputs := rfl

@[simp] theorem State.setPair_cfg (b : Byte) : (s.setPair b).cfg = s.cfg := rfl
@[simp] theorem State.setPair_ports (b : Byte) : (s.setPair b).ports = s.ports := rfl
@[simp] theorem State.setPair_lanes (b : Byte) : (s.setPair b).lanes = s.lanes := rfl
@[simp] theorem State.setPair_oor (b : Byte) : (s.setPair b).oor = s.oor := rfl
@[simp] theorem State.setPair_qNet (b : Byte) : (s.setPair b).qNet = s.qNet := rfl
@[simp] theorem State.setPair_maskNet (b : Byte) : (s.setPair b).maskNet = s.maskNet := rfl
@[simp] theorem State.setPair_sliceNet (b : Byte) : (s.setPair b).sliceNet = s.sliceNet := rfl
@[simp] theorem State.setPair_nibNet (b : Byte) : (s.setPair b).nibNet = s.nibNet := rfl
@[simp] theorem State.setPair_pairNet (b : Byte) : (s.setPair b).pairNet = some b := rfl
@[simp] theorem State.setPair_outValidQ (b : Byte) : (s.setPair b).outValidQ = s.outValidQ := rfl
@[simp] theorem State.setPair_dtdQ (b : Byte) : (s.setPair b).dtdQ = s.dtdQ := rfl
@[simp] theorem State.setPair_oorQ (b : Byte) : (s.setPair b).oorQ = s.oorQ := rfl
@[simp] theorem State.setPair_resetSeen (b : Byte) : (s.setPair b).resetSeen = s.resetSeen := rfl
@[simp] theorem State.setPair_inputs (b : Byte) : (s.setPair b).inputs = s.inputs := rfl

@[simp] theorem State.withInputs_cfg (bs : List Beat) : (s.withInputs bs).cfg = s.cfg := rfl
@[simp] theorem State.withInputs_ports (bs : List Beat) : (s.withInputs bs).ports = s.ports := rfl
@[simp] theorem State.withInputs_lanes (bs : List Beat) : (s.withInputs bs).lanes = s.lanes := rfl
@[simp] theorem State.withInputs_oor (bs : List Beat) : (s.withInputs bs).oor = s.oor := rfl
@[simp] theorem State.withInputs_qNet (bs : List Beat) : (s.withInputs bs).qNet = s.qNet := rfl
@[simp] theorem State.withInputs_maskNet (bs : List Beat) : (s.withInputs bs).maskNet = s.maskNet := rfl
@[simp] theorem State.withInputs_sliceNet (bs : List Beat) : (s.withInputs bs).sliceNet = s.sliceNet := rfl
@[simp] theorem State.withInputs_nibNet (bs : List Beat) : (s.withInputs bs).nibNet = s.nibNet := rfl
@[simp] theorem State.withInputs_pairNet (bs : List Beat) : (s.withInputs bs).pairNet = s.pairNet := rfl
@[simp] theorem State.withInputs_outValidQ (bs : List Beat) : (s.withInputs bs).outValidQ = s.outValidQ := rfl
@[simp] theorem State.withInputs_dtdQ (bs : List Beat) : (s.withInputs bs).dtdQ = s.dtdQ := rfl
@[simp] theorem State.withInputs_oorQ (bs : List Beat) : (s.withInputs bs).oorQ = s.oorQ := rfl
@[simp] theorem State.withInputs_resetSeen (bs : List Beat) : (s.withInputs bs).resetSeen = s.resetSeen := rfl
@[simp] theorem State.withInputs_inputs (bs : List Beat) : (s.withInputs bs).inputs = bs := rfl

@[simp] theorem State.resetEdge_cfg : s.resetEdge.cfg = s.cfg := rfl
@[simp] theorem State.resetEdge_ports : s.resetEdge.ports = s.ports := rfl
@[simp] theorem State.resetEdge_lanes : s.resetEdge.lanes = s.lanes := rfl
@[simp] theorem State.resetEdge_oor : s.resetEdge.oor = s.oor := rfl
@[simp] theorem State.resetEdge_qNet : s.resetEdge.qNet = s.qNet := rfl
@[simp] theorem State.resetEdge_maskNet : s.resetEdge.maskNet = s.maskNet := rfl
@[simp] theorem State.resetEdge_sliceNet : s.resetEdge.sliceNet = s.sliceNet := rfl
@[simp] theorem State.resetEdge_nibNet : s.resetEdge.nibNet = s.nibNet := rfl
@[simp] theorem State.resetEdge_pairNet : s.resetEdge.pairNet = s.pairNet := rfl
@[simp] theorem State.resetEdge_outValidQ : s.resetEdge.outValidQ = some false := rfl
@[simp] theorem State.resetEdge_dtdQ : s.resetEdge.dtdQ = none := rfl
@[simp] theorem State.resetEdge_oorQ : s.resetEdge.oorQ = none := rfl
@[simp] theorem State.resetEdge_resetSeen : s.resetEdge.resetSeen = true := rfl
@[simp] theorem State.resetEdge_inputs : s.resetEdge.inputs = s.inputs := rfl

@[simp] theorem State.acceptEdge_cfg : s.acceptEdge.cfg = s.cfg := rfl
@[simp] theorem State.acceptEdge_ports : s.acceptEdge.ports = s.ports := rfl
@[simp] theorem State.acceptEdge_lanes : s.acceptEdge.lanes = s.lanes := rfl
@[simp] theorem State.acceptEdge_oor : s.acceptEdge.oor = s.oor := rfl
@[simp] theorem State.acceptEdge_qNet : s.acceptEdge.qNet = s.qNet := rfl
@[simp] theorem State.acceptEdge_maskNet : s.acceptEdge.maskNet = s.maskNet := rfl
@[simp] theorem State.acceptEdge_sliceNet : s.acceptEdge.sliceNet = s.sliceNet := rfl
@[simp] theorem State.acceptEdge_nibNet : s.acceptEdge.nibNet = s.nibNet := rfl
@[simp] theorem State.acceptEdge_pairNet : s.acceptEdge.pairNet = s.pairNet := rfl
@[simp] theorem State.acceptEdge_outValidQ : s.acceptEdge.outValidQ = some true := rfl
@[simp] theorem State.acceptEdge_dtdQ : s.acceptEdge.dtdQ = some (descriptor s.cfg s.ports) := rfl
@[simp] theorem State.acceptEdge_oorQ :
    s.acceptEdge.oorQ = if s.cfg.validate then some (oorOf s.cfg s.ports) else s.oorQ := rfl
@[simp] theorem State.acceptEdge_resetSeen : s.acceptEdge.resetSeen = s.resetSeen := rfl
@[simp] theorem State.acceptEdge_inputs : s.acceptEdge.inputs = s.inputs := rfl

@[simp] theorem State.idleEdge_cfg : s.idleEdge.cfg = s.cfg := rfl
@[simp] theorem State.idleEdge_ports : s.idleEdge.ports = s.ports := rfl
@[simp] theorem State.idleEdge_lanes : s.idleEdge.lanes = s.lanes := rfl
@[simp] theorem State.idleEdge_oor : s.idleEdge.oor = s.oor := rfl
@[simp] theorem State.idleEdge_qNet : s.idleEdge.qNet = s.qNet := rfl
@[simp] theorem State.idleEdge_maskNet : s.idleEdge.maskNet = s.maskNet := rfl
@[simp] theorem State.idleEdge_sliceNet : s.idleEdge.sliceNet = s.sliceNet := rfl
@[simp] theorem State.idleEdge_nibNet : s.idleEdge.nibNet = s.nibNet := rfl
@[simp] theorem State.idleEdge_pairNet : s.idleEdge.pairNet = s.pairNet := rfl
@[simp] theorem State.idleEdge_outValidQ : s.idleEdge.outValidQ = some false := rfl
@[simp] theorem State.idleEdge_dtdQ : s.idleEdge.dtdQ = s.dtdQ := rfl
@[simp] theorem State.idleEdge_oorQ : s.idleEdge.oorQ = s.oorQ := rfl
@[simp] theorem State.idleEdge_resetSeen : s.idleEdge.resetSeen = s.resetSeen := rfl
@[simp] theorem State.idleEdge_inputs : s.idleEdge.inputs = s.inputs := rfl

@[simp] theorem State.preResetEdge_cfg : s.preResetEdge.cfg = s.cfg := rfl
@[simp] theorem State.preResetEdge_ports : s.preResetEdge.ports = s.ports := rfl
@[simp] theorem State.preResetEdge_lanes : s.preResetEdge.lanes = s.lanes := rfl
@[simp] theorem State.preResetEdge_oor : s.preResetEdge.oor = s.oor := rfl
@[simp] theorem State.preResetEdge_qNet : s.preResetEdge.qNet = s.qNet := rfl
@[simp] theorem State.preResetEdge_maskNet : s.preResetEdge.maskNet = s.maskNet := rfl
@[simp] theorem State.preResetEdge_sliceNet : s.preResetEdge.sliceNet = s.sliceNet := rfl
@[simp] theorem State.preResetEdge_nibNet : s.preResetEdge.nibNet = s.nibNet := rfl
@[simp] theorem State.preResetEdge_pairNet : s.preResetEdge.pairNet = s.pairNet := rfl
@[simp] theorem State.preResetEdge_outValidQ : s.preResetEdge.outValidQ = none := rfl
@[simp] theorem State.preResetEdge_dtdQ : s.preResetEdge.dtdQ = none := rfl
@[simp] theorem State.preResetEdge_oorQ : s.preResetEdge.oorQ = none := rfl
@[simp] theorem State.preResetEdge_resetSeen : s.preResetEdge.resetSeen = s.resetSeen := rfl
@[simp] theorem State.preResetEdge_inputs : s.preResetEdge.inputs = s.inputs := rfl

@[simp] theorem State.offer_cfg (b : Beat) : (s.offer b).cfg = s.cfg := rfl
@[simp] theorem State.offer_ports (b : Beat) : (s.offer b).ports = s.ports := rfl
@[simp] theorem State.offer_lanes (b : Beat) : (s.offer b).lanes = s.lanes := rfl
@[simp] theorem State.offer_oor (b : Beat) : (s.offer b).oor = s.oor := rfl
@[simp] theorem State.offer_qNet (b : Beat) : (s.offer b).qNet = s.qNet := rfl
@[simp] theorem State.offer_maskNet (b : Beat) : (s.offer b).maskNet = s.maskNet := rfl
@[simp] theorem State.offer_sliceNet (b : Beat) : (s.offer b).sliceNet = s.sliceNet := rfl
@[simp] theorem State.offer_nibNet (b : Beat) : (s.offer b).nibNet = s.nibNet := rfl
@[simp] theorem State.offer_pairNet (b : Beat) : (s.offer b).pairNet = s.pairNet := rfl
@[simp] theorem State.offer_outValidQ (b : Beat) : (s.offer b).outValidQ = s.outValidQ := rfl
@[simp] theorem State.offer_dtdQ (b : Beat) : (s.offer b).dtdQ = s.dtdQ := rfl
@[simp] theorem State.offer_oorQ (b : Beat) : (s.offer b).oorQ = s.oorQ := rfl
@[simp] theorem State.offer_resetSeen (b : Beat) : (s.offer b).resetSeen = s.resetSeen := rfl
@[simp] theorem State.offer_inputs (b : Beat) : (s.offer b).inputs = b :: s.inputs := rfl

@[simp] theorem State.present_cfg (P : TimingParameters) : (s.present P).cfg = s.cfg := by
  unfold State.present; split <;> rfl
@[simp] theorem State.present_maskNet (P : TimingParameters) : (s.present P).maskNet = s.maskNet := by
  unfold State.present; split <;> rfl
@[simp] theorem State.present_sliceNet (P : TimingParameters) : (s.present P).sliceNet = s.sliceNet := by
  unfold State.present; split <;> rfl
@[simp] theorem State.present_nibNet (P : TimingParameters) : (s.present P).nibNet = s.nibNet := by
  unfold State.present; split <;> rfl
@[simp] theorem State.present_pairNet (P : TimingParameters) : (s.present P).pairNet = s.pairNet := by
  unfold State.present; split <;> rfl
@[simp] theorem State.present_outValidQ (P : TimingParameters) : (s.present P).outValidQ = s.outValidQ := by
  unfold State.present; split <;> rfl
@[simp] theorem State.present_dtdQ (P : TimingParameters) : (s.present P).dtdQ = s.dtdQ := by
  unfold State.present; split <;> rfl
@[simp] theorem State.present_oorQ (P : TimingParameters) : (s.present P).oorQ = s.oorQ := by
  unfold State.present; split <;> rfl
@[simp] theorem State.present_resetSeen (P : TimingParameters) : (s.present P).resetSeen = s.resetSeen := by
  unfold State.present; split <;> rfl
@[simp] theorem State.present_inputs (P : TimingParameters) : (s.present P).inputs = s.inputs := by
  unfold State.present; split <;> rfl
@[simp] theorem State.present_ports (P : TimingParameters) : (s.present P).ports = P := by
  unfold State.present; split <;> simp_all

theorem State.present_same : s.present s.ports = s := by simp [State.present]

theorem State.present_changed (P : TimingParameters) (h : P ≠ s.ports) :
    s.present P = { s with ports := P, lanes := Vector.replicate 18 none, oor := none, qNet := none } := by
  simp [State.present, h]

@[simp] theorem State.clockEdge_cfg (r v : Bool) : (s.clockEdge r v).cfg = s.cfg := by
  unfold State.clockEdge; (repeat' split) <;> rfl
@[simp] theorem State.clockEdge_ports (r v : Bool) : (s.clockEdge r v).ports = s.ports := by
  unfold State.clockEdge; (repeat' split) <;> rfl
@[simp] theorem State.clockEdge_lanes (r v : Bool) : (s.clockEdge r v).lanes = s.lanes := by
  unfold State.clockEdge; (repeat' split) <;> rfl
@[simp] theorem State.clockEdge_oor (r v : Bool) : (s.clockEdge r v).oor = s.oor := by
  unfold State.clockEdge; (repeat' split) <;> rfl
@[simp] theorem State.clockEdge_qNet (r v : Bool) : (s.clockEdge r v).qNet = s.qNet := by
  unfold State.clockEdge; (repeat' split) <;> rfl
@[simp] theorem State.clockEdge_maskNet (r v : Bool) : (s.clockEdge r v).maskNet = s.maskNet := by
  unfold State.clockEdge; (repeat' split) <;> rfl
@[simp] theorem State.clockEdge_sliceNet (r v : Bool) : (s.clockEdge r v).sliceNet = s.sliceNet := by
  unfold State.clockEdge; (repeat' split) <;> rfl
@[simp] theorem State.clockEdge_nibNet (r v : Bool) : (s.clockEdge r v).nibNet = s.nibNet := by
  unfold State.clockEdge; (repeat' split) <;> rfl
@[simp] theorem State.clockEdge_pairNet (r v : Bool) : (s.clockEdge r v).pairNet = s.pairNet := by
  unfold State.clockEdge; (repeat' split) <;> rfl
@[simp] theorem State.clockEdge_inputs (r v : Bool) : (s.clockEdge r v).inputs = s.inputs := by
  unfold State.clockEdge; (repeat' split) <;> rfl

/-- The core has no clock (R250). -/
theorem State.clockEdge_core (r v : Bool) (h : s.cfg.wrapper = false) : s.clockEdge r v = s := by
  simp [State.clockEdge, h]

/-- Reset takes priority (R251). -/
theorem State.clockEdge_reset (v : Bool) (h : s.cfg.wrapper = true) : s.clockEdge true v = s.resetEdge := by
  simp [State.clockEdge, h]

theorem State.clockEdge_accept (h : s.cfg.wrapper = true) (hr : s.resetSeen = true) :
    s.clockEdge false true = s.acceptEdge := by
  simp [State.clockEdge, h, hr]

theorem State.clockEdge_idle (h : s.cfg.wrapper = true) (hr : s.resetSeen = true) :
    s.clockEdge false false = s.idleEdge := by
  simp [State.clockEdge, h, hr]

/-- Until the first reset edge no register has a value (R253). -/
theorem State.clockEdge_preReset (v : Bool) (h : s.cfg.wrapper = true) (hr : s.resetSeen = false) :
    s.clockEdge false v = s.preResetEdge := by
  simp [State.clockEdge, h, hr]

/-- Only a reset edge of the wrapper admits observations. -/
theorem State.clockEdge_resetSeen (r v : Bool) :
    (s.clockEdge r v).resetSeen = (s.resetSeen || (s.cfg.wrapper && r)) := by
  unfold State.clockEdge; (repeat' split) <;> simp_all

end Updates

end Sys2Proof.Machine
end

