-- ==== Sys2Proof/Laws/Words.lean ====
section
/-!
SUPPORT. Numbers, port bundles and transaction words: what is written is read back.
-/

namespace Sys2Proof

theorem putLE_length (n v : Nat) : (putLE n v).length = n := by
  induction n generalizing v with
  | zero => rfl
  | succ n ih => simp [putLE, ih]

theorem takeLE_putLE (n v : Nat) (rest : List Byte) :
    takeLE n (putLE n v ++ rest) = some (v % 256 ^ n, rest) := by
  induction n generalizing v with
  | zero => simp [takeLE, putLE, Nat.mod_one]
  | succ n ih =>
    have hm : v % 256 ^ (n + 1) = v % 256 + 256 * (v / 256 % 256 ^ n) := by
      rw [Nat.pow_succ, Nat.mul_comm (256 ^ n) 256, Nat.mod_mul]
    have hb : (BitVec.ofNat 8 v).toNat = v % 256 := by simp
    simp only [putLE, List.cons_append, takeLE, ih, hb, hm]

theorem two_pow_le_byteCount (w : Nat) : 2 ^ w ≤ 256 ^ byteCount w := by
  have : 256 ^ byteCount w = 2 ^ (8 * byteCount w) := by rw [Nat.pow_mul]
  rw [this]
  exact Nat.pow_le_pow_right (by decide) (by unfold byteCount; omega)

theorem takeBits_putBits (w v : Nat) (rest : List Byte) (h : v < 2 ^ w) :
    takeBits w (putBits w v ++ rest) = .ok (v, rest) := by
  have hm : v % 256 ^ byteCount w = v := Nat.mod_eq_of_lt (Nat.lt_of_lt_of_le h (two_pow_le_byteCount w))
  simp [takeBits, putBits, takeLE_putLE, hm, h]

theorem takePorts_putPorts (ws vs : List Nat) (rest : List Byte) (hl : ws.length = vs.length)
    (h : ∀ p ∈ ws.zip vs, p.2 < 2 ^ p.1) : takePorts ws (putPorts ws vs ++ rest) = .ok (vs, rest) := by
  induction ws generalizing vs with
  | nil => cases vs <;> simp_all [takePorts, putPorts]
  | cons w ws ih =>
    cases vs with
    | nil => simp at hl
    | cons v vs =>
      simp only [List.zip_cons_cons, List.mem_cons, forall_eq_or_imp] at h
      simp only [putPorts, List.append_assoc, takePorts, takeBits_putBits w v _ h.1,
        ih vs (by simpa using hl) h.2]

/-- A record the ports can carry survives its bundle. -/
theorem decodeBundle_encodeBundle (c : Config) (P : TimingParameters) (rest : List Byte) (h : P.fits c) :
    decodeBundle c (encodeBundle c P ++ rest) = .ok (P, rest) := by
  have hz : ∀ p ∈ (portWidths c).zip (toPorts P), p.2 < 2 ^ p.1 := by
    simpa [portWidths, toPorts, List.replicate, TimingParameters.fits] using h
  simp only [decodeBundle, encodeBundle, takePorts_putPorts (portWidths c) (toPorts P) rest rfl hz]
  rfl

theorem maskWidthOf_widthOf (w : MaskWidth) : maskWidthOf (Machine.widthOf w % 256) = some w := by cases w <;> rfl

/-- What a number read in n bytes says about those bytes. -/
theorem takeLE_some (n : Nat) (bs rest : List Byte) (v : Nat) (h : takeLE n bs = some (v, rest)) :
    bs = putLE n v ++ rest := by
  induction n generalizing bs v with
  | zero => simp [takeLE] at h; simp [putLE, h]
  | succ n ih =>
    cases bs with
    | nil => simp [takeLE] at h
    | cons b bs =>
      simp only [takeLE] at h
      split at h
      · cases h
      · next v' rest' hv =>
        simp only [Option.some.injEq, Prod.mk.injEq] at h
        obtain ⟨rfl, rfl⟩ := h
        have hb := b.isLt
        have h1 : (b.toNat + 256 * v') / 256 = v' := by omega
        have h2 : BitVec.ofNat 8 (b.toNat + 256 * v') = b := by
          apply BitVec.eq_of_toNat_eq; simp only [BitVec.toNat_ofNat]; omega
        simp [putLE, h1, h2, ih bs v' hv]

/-- What a value read as w bits says about its bytes and its range. -/
theorem takeBits_ok (w : Nat) (bs rest : List Byte) (v : Nat) (h : takeBits w bs = .ok (v, rest)) :
    bs = putBits w v ++ rest ∧ v < 2 ^ w := by
  simp only [takeBits] at h
  split at h
  · cases h
  · next v' rest' hv =>
    split at h
    · next hlt => cases h; exact ⟨takeLE_some _ _ _ _ hv, hlt⟩
    · cases h

/-- What the ports read from a bundle say about its bytes and their ranges. -/
theorem takePorts_ok (ws : List Nat) (bs rest : List Byte) (vs : List Nat) (h : takePorts ws bs = .ok (vs, rest)) :
    bs = putPorts ws vs ++ rest ∧ ws.length = vs.length ∧ ∀ p ∈ ws.zip vs, p.2 < 2 ^ p.1 := by
  induction ws generalizing bs vs with
  | nil => simp [takePorts] at h; obtain ⟨rfl, rfl⟩ := h; simp [putPorts]
  | cons w ws ih =>
    simp only [takePorts] at h
    split at h
    · cases h
    · next v r hv =>
      split at h
      · cases h
      · next vs' r' hvs =>
        cases h
        obtain ⟨h1, h2⟩ := takeBits_ok _ _ _ _ hv
        obtain ⟨h3, h4, h5⟩ := ih _ _ hvs
        exact ⟨by rw [h1, h3]; simp [putPorts], by simp [h4], List.forall_mem_cons.mpr ⟨h2, h5⟩⟩

/-- What a decoded bundle says about its bytes: it is the bundle of a record the ports carry. -/
theorem decodeBundle_ok (c : Config) (bs rest : List Byte) (P : TimingParameters)
    (h : decodeBundle c bs = .ok (P, rest)) : bs = encodeBundle c P ++ rest ∧ P.fits c := by
  simp only [decodeBundle] at h
  split at h
  · cases h
  · next vs r hvs =>
    obtain ⟨h1, _, h3⟩ := takePorts_ok _ _ _ _ hvs
    unfold ofPorts at h
    split at h
    · cases h
    · next Q heq =>
      cases h
      split at heq
      · cases heq
        refine ⟨h1, ?_⟩
        simpa [portWidths, List.replicate, TimingParameters.fits] using h3
      · cases heq

/-- A decoded operation is well formed. -/
theorem decodeAt_wf (c : Config) (p : Nat) (bs rest : List Byte) (i : Instr)
    (h : decodeAt c p bs = .ok (i, rest)) : i.wf c := by
  unfold decodeAt at h
  split at h
  case h_3 =>
    simp only [decodeMask] at h
    split at h <;> try cases h
    split at h <;> try cases h
    split at h <;> try cases h
    next hv => exact (takeBits_ok _ _ _ _ hv).2
  case h_4 =>
    simp only [decodeSlice] at h
    split at h <;> try cases h
    split at h <;> try cases h
    next hle =>
    split at h <;> try cases h
    next hv => exact ⟨hle, BitVec.isLt _, (takeBits_ok _ _ _ _ hv).2⟩
  case h_5 => simp only [decodeNibpack] at h; split at h <;> cases h; trivial
  case h_6 => simp only [decodePairpack] at h; split at h <;> cases h; trivial
  case h_27 => cases h
  all_goals cases h; trivial

/-- The two parts of a decoded word. -/
theorem decode_parts (c : Config) (bs : List Byte) (i : Instr) (P : TimingParameters) (h : decode c bs = .ok (i, P)) :
    ∃ rest, decodeOp c bs = .ok (i, rest) ∧ decodeBundle c rest = .ok (P, []) := by
  simp only [decode] at h
  split at h
  · cases h
  · next i' rest hop =>
    split at h
    · cases h
    · next P' rest' hb =>
      split at h
      · next hr => cases h; subst hr; exact ⟨rest, hop, hb⟩
      · cases h

/-- What decodes is well formed and is a record the ports carry (R24, I1). -/
theorem decode_wf (c : Config) (bs : List Byte) (i : Instr) (P : TimingParameters) (h : decode c bs = .ok (i, P)) :
    i.wf c ∧ P.fits c := by
  obtain ⟨rest, h1, h2⟩ := decode_parts c bs i P h
  refine ⟨?_, (decodeBundle_ok _ _ _ _ h2).2⟩
  unfold decodeOp at h1
  split at h1
  · cases h1
  · exact decodeAt_wf _ _ _ _ _ h1

end Sys2Proof
end

