-- ==== Sys2Proof/Laws/Exec.lean ====
section
/-!
SUPPORT. What each shared operation, `exec` and `step` can do, said once.
-/

namespace Sys2Proof.Machine

/-- The length check passes exactly on 18 bytes (R221). -/
theorem checkLength_error_iff (bs : List Byte) : checkLength bs = .error .lengthFault ↔ bs.length ≠ 18 := by
  unfold checkLength; split <;> simp_all

/-- ENCODE's bytes always pass the length check (R181, R221). -/
theorem checkLength_encodeBytes (c : Config) (P : TimingParameters) :
    checkLength (encodeBytes c P) = .ok (descriptor c P) := rfl

theorem execEncode_eq (s : State) :
    execEncode s = .next ((s.setLanes (descriptor s.cfg s.ports)).setOor (oorOf s.cfg s.ports)) := rfl

theorem execSlice_eq (v hi lo : Nat) (s : State) (h : lo ≤ hi) :
    execSlice v hi lo s = .next (s.setSlice ⟨hi - lo + 1, slice v hi lo⟩) := by simp [execSlice, h]

theorem execSlice_refused (v hi lo : Nat) (s : State) (h : hi < lo) : execSlice v hi lo s = .refused .sliceOrder := by
  simp [execSlice, Nat.not_le.mpr h]

/-- The core's lanes are settled to d exactly when each of them is. -/
theorem settled_eq_some_iff (s : State) (d : Descriptor) :
    s.settled = some d ↔ ∀ k : Fin 18, s.lanes[k] = some d[k] := by
  unfold State.settled
  constructor
  · intro h k
    split at h
    · next hall =>
      simp only [Option.some.injEq] at h
      subst h
      rw [List.all_eq_true] at hall
      obtain ⟨b, hb⟩ := Option.isSome_iff_exists.mp (hall (s.lanes[k]) (by simp))
      simp only [Fin.getElem_fin] at hb
      simp [hb]
    · cases h
  · intro h
    have hall : s.lanes.toList.all (·.isSome) = true := by
      rw [List.all_eq_true]
      intro x hx
      obtain ⟨i, hi, rfl⟩ := List.mem_iff_getElem.mp hx
      have := h ⟨i, by simpa using hi⟩
      simp at this ⊢
      simp [this]
    rw [if_pos hall]
    congr 1
    apply Vector.ext
    intro i hi
    have := h ⟨i, hi⟩
    simp at this ⊢
    simp [this]

@[simp] theorem settled_setLanes (s : State) (d : Descriptor) : (s.setLanes d).settled = some d := by
  rw [settled_eq_some_iff]; intro k; simp

@[simp] theorem settled_setOor (s : State) (v : OorVec) : (s.setOor v).settled = s.settled := rfl

/-- A present that changes the record leaves no lane settled (R256). -/
theorem lanes_present (s : State) (P : TimingParameters) (k : Fin 18) (b : Byte) (h : (s.present P).lanes[k] = some b) :
    P = s.ports ∧ s.lanes[k] = some b := by
  by_cases hP : P = s.ports
  · exact ⟨hP, by rwa [hP, State.present_same] at h⟩
  · rw [State.present_changed s P hP] at h; simp at h

/-- Every meaning leaves the configuration, the ports, the wrapper's registers and the pending beats alone. -/
theorem exec_frame (i : Instr) (s t : State) (h : exec i s = .next t) :
    t.cfg = s.cfg ∧ t.ports = s.ports ∧ t.outValidQ = s.outValidQ ∧ t.dtdQ = s.dtdQ ∧ t.oorQ = s.oorQ ∧
      t.resetSeen = s.resetSeen ∧ t.inputs = s.inputs := by
  cases i
  case encode => rw [exec, execEncode_eq] at h; cases h; simp
  case slice v hi lo => simp only [exec, execSlice] at h; split at h <;> cases h; simp
  all_goals cases h; simp

/-- No meaning faults (R222). -/
theorem exec_ne_fault (i : Instr) (s : State) (f : Fault) : exec i s ≠ .fault f := by
  cases i
  case encode => rw [exec, execEncode_eq]; exact nofun
  case slice v hi lo => simp only [exec, execSlice]; split <;> exact nofun
  all_goals exact nofun

/-- An operation runs exactly where it is no SLICE with hi < lo. -/
theorem exec_runs (i : Instr) (s : State) (c : Config) (h : i.wf c) : ∃ t, exec i s = .next t := by
  cases i
  case slice v hi lo => exact ⟨_, execSlice_eq v hi lo s h.1⟩
  all_goals exact ⟨_, rfl⟩

/-- A beat that is not discarded and decodes runs its operation on its record, then takes the edge. -/
theorem runBeat_decoded (s : State) (b : Beat) (i : Instr) (P : TimingParameters) (hd : s.discards b = false)
    (h : decode s.cfg b.word = .ok (i, P)) : s.runBeat b = s.transact i P := by
  simp [State.runBeat, hd, h]

theorem runBeat_discarded (s : State) (b : Beat) (hd : s.discards b = true) :
    s.runBeat b = .next (s.clockEdge b.rst b.inValid) := by simp [State.runBeat, hd]

theorem step_nil (s : State) (h : s.inputs = []) : step s = .next (s.clockEdge false false) := by
  simp [step, State.advance, h]

theorem step_cons (s : State) (b : Beat) (rest : List Beat) (h : s.inputs = b :: rest) :
    step s = (s.withInputs rest).runBeat b := by simp [step, State.advance, h]

/-- Everything a step that answers a next state can have done. -/
theorem step_cases (s t : State) (h : step s = .next t) :
    (s.inputs = [] ∧ t = s.clockEdge false false) ∨
    (∃ b rest, s.inputs = b :: rest ∧ s.discards b = true ∧
      t = (s.withInputs rest).clockEdge b.rst b.inValid) ∨
    (∃ b rest i P u, s.inputs = b :: rest ∧ s.discards b = false ∧ decode s.cfg b.word = .ok (i, P) ∧
      exec i ((s.withInputs rest).present P) = .next u ∧ t = u.clockEdge false true) := by
  rcases hin : s.inputs with _ | ⟨b, rest⟩
  · left; rw [step_nil s hin] at h; cases h; exact ⟨rfl, rfl⟩
  · right
    rw [step_cons s b rest hin] at h
    rcases hd : s.discards b
    · right
      have hd' : (s.withInputs rest).discards b = false := hd
      simp only [State.runBeat, hd', Bool.false_eq_true, if_false] at h
      split at h
      · cases h
      · next i P hdec =>
        simp only [State.transact] at h
        split at h
        · next u hu => cases h; exact ⟨b, rest, i, P, u, rfl, hd, hdec, hu, rfl⟩
        · cases h
        · cases h
    · left
      have hd' : (s.withInputs rest).discards b = true := hd
      rw [runBeat_discarded _ _ hd'] at h
      cases h
      exact ⟨b, rest, rfl, hd, rfl⟩

/-- A decoded operation runs on every state. -/
theorem exec_decoded (s : State) (c : Config) (bs : List Byte) (i : Instr) (P : TimingParameters)
    (h : decode c bs = .ok (i, P)) : ∃ t, exec i s = .next t := exec_runs i s c (decode_wf c bs i P h).1

/-- The step of a beat that is accepted: by the core always, by the wrapper outside reset with `in_valid` = 1. -/
theorem step_accepted (s : State) (b : Beat) (rest : List Beat) (i : Instr) (P : TimingParameters)
    (h : s.inputs = b :: rest) (hp : s.cfg.wrapper = true → b.rst = false ∧ b.inValid = true)
    (hd : decode s.cfg b.word = .ok (i, P)) :
    ∃ t, exec i ((s.withInputs rest).present P) = .next t ∧ step s = .next (t.clockEdge false true) := by
  obtain ⟨t, ht⟩ := exec_decoded ((s.withInputs rest).present P) _ _ _ _ hd
  refine ⟨t, ht, ?_⟩
  have hdis : (s.withInputs rest).discards b = false := by
    cases hw : s.cfg.wrapper
    · simp [State.discards, hw]
    · simp [State.discards, hp hw]
  rw [step_cons s b rest h, runBeat_decoded _ b i P hdis hd, State.transact, ht]

/-- The step of a reset edge (R251). -/
theorem step_reset (s : State) (b : Beat) (rest : List Beat) (hw : s.cfg.wrapper = true) (h : s.inputs = b :: rest)
    (hr : b.rst = true) : step s = .next (s.withInputs rest).resetEdge := by
  rw [step_cons s b rest h, runBeat_discarded _ _ (by simp [State.discards, hw, hr]), hr, State.clockEdge_reset (s.withInputs rest) _ hw]

/-- The step of an edge with `rst` = 0 and `in_valid` = 0 (R29). -/
theorem step_bubble (s : State) (b : Beat) (rest : List Beat) (hw : s.cfg.wrapper = true) (hs : s.resetSeen = true)
    (h : s.inputs = b :: rest) (hr : b.rst = false) (hv : b.inValid = false) :
    step s = .next (s.withInputs rest).idleEdge := by
  rw [step_cons s b rest h, runBeat_discarded _ _ (by simp [State.discards, hw, hv]), hr, hv,
    State.clockEdge_idle (s.withInputs rest) hw hs]

/-- The same edge before the first reset edge (R253). -/
theorem step_bubble_preReset (s : State) (b : Beat) (rest : List Beat) (hw : s.cfg.wrapper = true)
    (hs : s.resetSeen = false) (h : s.inputs = b :: rest) (hr : b.rst = false) (hv : b.inValid = false) :
    step s = .next (s.withInputs rest).preResetEdge := by
  rw [step_cons s b rest h, runBeat_discarded _ _ (by simp [State.discards, hw, hv]), hr, hv,
    State.clockEdge_preReset (s.withInputs rest) _ hw hs]

/-- One step of a run, of any machine. -/
theorem machine_run_succ (M : Host.Core) (k : Nat) (s t : M.State) (h : M.step s = .next t) :
    M.run (k + 1) s = M.run k t := by simp [Host.Core.run, h]

/-- One step of a run. -/
theorem run_succ (k : Nat) (s t : State) (h : step s = .next t) :
    Host.Core.run Sys2Proof.core (k + 1) s = Host.Core.run Sys2Proof.core k t :=
  machine_run_succ Sys2Proof.core k s t h

/-- A run cut in two, of any machine. -/
theorem machine_run_add (M : Host.Core) (j k : Nat) (s t : M.State) (h : M.run j s = .next t) :
    M.run (j + k) s = M.run k t := by
  induction j generalizing s with
  | zero => simp only [Host.Core.run] at h; cases h; simp
  | succ j ih =>
    have e : j + 1 + k = j + k + 1 := by omega
    rw [e]
    simp only [Host.Core.run] at h ⊢
    split at h
    · exact ih _ h
    · cases h
    · cases h

/-- A run cut in two. -/
theorem run_add (j k : Nat) (s t : State) (h : Host.Core.run Sys2Proof.core j s = .next t) :
    Host.Core.run Sys2Proof.core (j + k) s = Host.Core.run Sys2Proof.core k t :=
  machine_run_add Sys2Proof.core j k s t h

end Sys2Proof.Machine
end

