-- ==== Sys2Proof/Laws/Lanes.lean ====
section
/-!
SUPPORT. The byte of each lane: its place in the descriptor, and its bits (spec/30_encoding.md R63); what a lane operation does; the
bits of the out-of-range report.
-/

namespace Sys2Proof.Machine

section Lanes

variable (c : Config) (P : TimingParameters) (i : Nat)

@[simp] theorem descriptor_0 : (descriptor c P)[0] = lane0Byte P := rfl
@[simp] theorem descriptor_1 : (descriptor c P)[1] = lane1Byte P := rfl
@[simp] theorem descriptor_2 : (descriptor c P)[2] = lane2Byte P := rfl
@[simp] theorem descriptor_3 : (descriptor c P)[3] = lane3Byte P := rfl
@[simp] theorem descriptor_4 : (descriptor c P)[4] = lane4Byte P := rfl
@[simp] theorem descriptor_5 : (descriptor c P)[5] = lane5Byte P := rfl
@[simp] theorem descriptor_6 : (descriptor c P)[6] = lane6Byte P := rfl
@[simp] theorem descriptor_7 : (descriptor c P)[7] = lane7Byte P := rfl
@[simp] theorem descriptor_8 : (descriptor c P)[8] = lane8Byte P := rfl
@[simp] theorem descriptor_9 : (descriptor c P)[9] = lane9Byte P := rfl
@[simp] theorem descriptor_10 : (descriptor c P)[10] = lane10Byte P := rfl
@[simp] theorem descriptor_11 : (descriptor c P)[11] = lane11Byte P := rfl
@[simp] theorem descriptor_12 : (descriptor c P)[12] = lane12Byte P := rfl
@[simp] theorem descriptor_13 : (descriptor c P)[13] = lane13Byte P := rfl
@[simp] theorem descriptor_14 : (descriptor c P)[14] = lane14Byte P := rfl
@[simp] theorem descriptor_15 : (descriptor c P)[15] = lane15Byte P := rfl
@[simp] theorem descriptor_16 : (descriptor c P)[16] = lane16Byte P := rfl
@[simp] theorem descriptor_17 : (descriptor c P)[17] = lane17Byte c P := rfl

theorem lane0_bit : (lane0Byte P).getLsbD i = (decide (i < 8) && (pcqCount P.pixelClockHz).getLsbD i) := low8_getLsbD _ _

theorem lane1_bit : (lane1Byte P).getLsbD i = (decide (i < 8) && (pcqCount P.pixelClockHz).getLsbD (8 + i)) :=
  high8_getLsbD _ _

theorem lane2_bit : (lane2Byte P).getLsbD i = (decide (i < 8) && P.horzAddrPx.testBit i) := low8_getLsbD _ _

theorem lane3_bit : (lane3Byte P).getLsbD i = (decide (i < 8) && P.horzBlankPx.testBit i) := low8_getLsbD _ _

theorem lane5_bit : (lane5Byte P).getLsbD i = (decide (i < 8) && P.vertAddrLines.testBit i) := low8_getLsbD _ _

theorem lane6_bit : (lane6Byte P).getLsbD i = (decide (i < 8) && P.vertBlankLines.testBit i) := low8_getLsbD _ _

theorem lane8_bit : (lane8Byte P).getLsbD i = (decide (i < 8) && P.horzFrontPorchPx.testBit i) := low8_getLsbD _ _

theorem lane9_bit : (lane9Byte P).getLsbD i = (decide (i < 8) && P.horzSyncPulsePx.testBit i) := low8_getLsbD _ _

theorem lane12_bit : (lane12Byte P).getLsbD i = (decide (i < 8) && P.horzImageMm.testBit i) := low8_getLsbD _ _

theorem lane13_bit : (lane13Byte P).getLsbD i = (decide (i < 8) && P.vertImageMm.testBit i) := low8_getLsbD _ _

theorem lane15_bit : (lane15Byte P).getLsbD i = (decide (i < 8) && P.horzBorderPx.testBit i) := low8_getLsbD _ _

theorem lane16_bit : (lane16Byte P).getLsbD i = (decide (i < 8) && P.vertBorderLines.testBit i) := low8_getLsbD _ _

theorem lane4_bit (h : i < 8) :
    (lane4Byte P).getLsbD i = if i < 4 then P.horzBlankPx.testBit (8 + i) else P.horzAddrPx.testBit (4 + i) := by
  simp only [lane4Byte, nibpack_getLsbD, high4_getLsbD]; grind

theorem lane7_bit (h : i < 8) :
    (lane7Byte P).getLsbD i = if i < 4 then P.vertBlankLines.testBit (8 + i) else P.vertAddrLines.testBit (4 + i) := by
  simp only [lane7Byte, nibpack_getLsbD, high4_getLsbD]; grind

theorem lane10_bit (h : i < 8) :
    (lane10Byte P).getLsbD i = if i < 4 then P.vertSyncPulseLines.testBit (i) else P.vertFrontPorchLines.testBit (i - 4) := by
  simp only [lane10Byte, nibpack_getLsbD, low4_getLsbD]; grind

theorem lane14_bit (h : i < 8) :
    (lane14Byte P).getLsbD i = if i < 4 then P.vertImageMm.testBit (8 + i) else P.horzImageMm.testBit (4 + i) := by
  simp only [lane14Byte, nibpack_getLsbD, high4_getLsbD]; grind

theorem lane11_bit (h : i < 8) :
    (lane11Byte P).getLsbD i =
      if i < 2 then P.vertSyncPulseLines.testBit (4 + i)
      else if i < 4 then P.vertFrontPorchLines.testBit (2 + i)
      else if i < 6 then P.horzSyncPulsePx.testBit (4 + i)
      else P.horzFrontPorchPx.testBit (2 + i) := by
  simp only [lane11Byte, pairpack_getLsbD, bits9to8_getLsbD, bits5to4_getLsbD]; grind

theorem lane17_bit :
    (lane17Byte c P).getLsbD i =
      if c.generalizeFlags then decide (i < 8) && P.syncFlags.testBit i else flagsConst.getLsbD i := by
  simp only [lane17Byte]; split
  · exact low8_getLsbD _ _
  · rfl

/-- Bit i of the report is the check of the field of index i (R200, R203). -/
theorem oorOf_getLsbD (f : Field) : (oorOf c P).getLsbD (fieldIndex f).val = outOfRange c P f := by
  have h : (oorOf c P).getLsbD (fieldIndex f).val = _ := BitVec.getLsbD_ofBoolListLE
  rw [h]
  cases f <;> rfl

end Lanes

/-- A lane that is set. -/
@[simp] theorem State.setLane_lane_same (s : State) (k : Nat) (v : Byte) (h : k < 18) :
    (s.setLane k v h).lanes[k] = some v := by simp

/-- Another lane. -/
theorem State.setLane_lane_other (s : State) (k j : Nat) (v : Byte) (h : k < 18) (hj : j < 18) (hne : k ≠ j) :
    (s.setLane k v h).lanes[j] = s.lanes[j] := by simp [hne]

/-- Every lane operation sets its own lane to that lane's byte of ENCODE, and does nothing else (R61, R183). -/
theorem exec_laneOf (i : Instr) (s : State) (l : Fin 18) (h : laneOf i = some l) :
    exec i s = .next (s.setLane l.val (descriptor s.cfg s.ports)[l] l.isLt) := by
  cases i <;> simp only [laneOf, Option.some.injEq, reduceCtorEq] at h <;> subst h <;> rfl

end Sys2Proof.Machine
end

