-- ==== Sys2Proof/Laws/PerInstr.lean ====
section
/-!
SUPPORT. Statements made for every constructor of Instr. Family OperationWord: the bytes that select a well-formed operation
are decoded to that operation, with every value operand, and nothing after them is consumed.
-/

namespace Sys2Proof.Laws.OperationWord

/-- The operation part of a transaction word is read back. -/
def Statement (i : Instr) : Prop :=
  ∀ (c : Config) (rest : List Byte), i.wf c → decodeOp c (encodeOp c i ++ rest) = .ok (i, rest)

theorem mask (w : MaskWidth) (v : Nat) : Statement (.mask w v) := by
  intro c rest h
  simp [encodeOp, encodeOperands, position, decodeOp, decodeAt, decodeMask, maskWidthOf_widthOf,
    takeBits_putBits c.netW v rest h]

theorem slice (v hi lo : Nat) : Statement (.slice v hi lo) := by
  intro c rest h
  obtain ⟨h1, h2, h3⟩ := h
  have e1 : hi % 256 = hi := by omega
  have e2 : lo % 256 = lo := by omega
  simp [encodeOp, encodeOperands, position, decodeOp, decodeAt, decodeSlice, e1, e2, h1,
    takeBits_putBits c.netW v rest h3]

theorem nibpack (h l : Nibble) : Statement (.nibpack h l) := by
  intro c rest _
  have e : ∀ h l : Nibble, (h ++ l).extractLsb' 4 4 = h ∧ (h ++ l).extractLsb' 0 4 = l := by decide
  simp [encodeOp, encodeOperands, position, decodeOp, decodeAt, decodeNibpack, e]

theorem pairpack (a b c d : Pair) : Statement (.pairpack a b c d) := by
  intro cfg rest _
  have e : ∀ a b c d : Pair, (a ++ b ++ c ++ d).extractLsb' 6 2 = a ∧ (a ++ b ++ c ++ d).extractLsb' 4 2 = b ∧
    (a ++ b ++ c ++ d).extractLsb' 2 2 = c ∧ (a ++ b ++ c ++ d).extractLsb' 0 2 = d := by decide
  simp [encodeOp, encodeOperands, position, decodeOp, decodeAt, decodePairpack, e]

theorem encode : Statement .encode := fun _ _ _ => rfl

theorem pcq : Statement .pcq := fun _ _ _ => rfl

theorem lane0 : Statement .lane0 := fun _ _ _ => rfl

theorem lane1 : Statement .lane1 := fun _ _ _ => rfl

theorem lane2 : Statement .lane2 := fun _ _ _ => rfl

theorem lane3 : Statement .lane3 := fun _ _ _ => rfl

theorem lane4 : Statement .lane4 := fun _ _ _ => rfl

theorem lane5 : Statement .lane5 := fun _ _ _ => rfl

theorem lane6 : Statement .lane6 := fun _ _ _ => rfl

theorem lane7 : Statement .lane7 := fun _ _ _ => rfl

theorem lane8 : Statement .lane8 := fun _ _ _ => rfl

theorem lane9 : Statement .lane9 := fun _ _ _ => rfl

theorem lane10 : Statement .lane10 := fun _ _ _ => rfl

theorem lane11 : Statement .lane11 := fun _ _ _ => rfl

theorem lane12 : Statement .lane12 := fun _ _ _ => rfl

theorem lane13 : Statement .lane13 := fun _ _ _ => rfl

theorem lane14 : Statement .lane14 := fun _ _ _ => rfl

theorem lane15 : Statement .lane15 := fun _ _ _ => rfl

theorem lane16 : Statement .lane16 := fun _ _ _ => rfl

theorem lane17 : Statement .lane17 := fun _ _ _ => rfl

theorem lane17Gen : Statement .lane17Gen := fun _ _ _ => rfl

theorem validate : Statement .validate := fun _ _ _ => rfl

end Sys2Proof.Laws.OperationWord
end

