-- ==== Sys2Proof/Tests/Slice0.lean ====
section
/-!
SUPPORT. The author's own tests. Every expected value is one that spec/95_test_vectors.md or a rule's worked example writes
out; the section is named at each group. The last part shows, for every statement of Certificates/Slice0/Obligations.lean
that has hypotheses, values that meet them together, at the boundary of their range.
-/

namespace Sys2Proof.Tests

open Sys2Proof Sys2Proof.Machine

/-! ### Records, words and states of spec/95 -/

/-- Ref (spec/95, head). -/
def ref : TimingParameters :=
  { pixelClockHz := 69750000, horzAddrPx := 1152, horzBlankPx := 160, vertAddrLines := 864, vertBlankLines := 25,
    horzFrontPorchPx := 48, horzSyncPulsePx := 32, vertFrontPorchLines := 3, vertSyncPulseLines := 4 }

/-- The 1080p record of P2 (spec/95 section 7), with image sizes. -/
def fullHd : TimingParameters :=
  { pixelClockHz := 148500000, horzAddrPx := 1920, horzBlankPx := 280, vertAddrLines := 1080, vertBlankLines := 45,
    horzFrontPorchPx := 88, horzSyncPulsePx := 44, vertFrontPorchLines := 4, vertSyncPulseLines := 5,
    horzImageMm := 600, vertImageMm := 340 }

/-- V-ENC-3 (spec/95 section 5): distinct nibbles everywhere. -/
def nibbles : TimingParameters :=
  { horzAddrPx := 0xABC, horzBlankPx := 0x123, vertAddrLines := 0x456, vertBlankLines := 0x789, horzImageMm := 0xDEF,
    vertImageMm := 0x5A5 }

/-- V-ENC-4: every field at 2^W − 1. -/
def allOnes (flags : Nat) : TimingParameters :=
  ⟨655354999, 4095, 4095, 4095, 4095, 1023, 1023, 63, 63, 4095, 4095, 255, 255, flags⟩

/-- V-ENC-5: every field at 2^W. -/
def allBoundary (flags : Nat) : TimingParameters :=
  ⟨655355000, 4096, 4096, 4096, 4096, 1024, 1024, 64, 64, 4096, 4096, 256, 256, flags⟩

/-- MIX (V-ENC-23): every kind of truncation. -/
def mix : TimingParameters :=
  ⟨700000000, 5000, 4095, 4096, 1, 1024, 1023, 63, 64, 65535, 4095, 300, 255, 0x1FE⟩

/-- The port bundle of P1 (spec/95 section 7): 04284CF0, 0480, 00A0, 0360, 0019, 0030, 0020, 0003, 0004, 0000, 0000, 0000,
0000, 001A, each port least significant byte first. -/
def refBundle : List Byte :=
  [0xF0, 0x4C, 0x28, 0x04, 0x80, 0x04, 0xA0, 0x00, 0x60, 0x03, 0x19, 0x00, 0x30, 0x00, 0x20, 0x00, 0x03, 0x00, 0x04, 0x00,
    0x00, 0x00, 0x00, 0x00, 0x00, 0x00, 0x00, 0x00, 0x1A, 0x00]

/-- The port bundle of P3's third transaction: 29B92700, 1388, 0FFF, 1000, 0001, 0400, 03FF, 003F, 0040, FFFF, 0FFF, 012C,
00FF, 01FE. -/
def mixBundle : List Byte :=
  [0x00, 0x27, 0xB9, 0x29, 0x88, 0x13, 0xFF, 0x0F, 0x00, 0x10, 0x01, 0x00, 0x00, 0x04, 0xFF, 0x03, 0x3F, 0x00, 0x40, 0x00,
    0xFF, 0xFF, 0xFF, 0x0F, 0x2C, 0x01, 0xFF, 0x00, 0xFE, 0x01]

/-- A state of the core with a record at its ports. -/
def on (c : Config) (P : TimingParameters) : State := { State.resetWith c with ports := P }

/-- The configurations of the tests. -/
def generalized : Config := { generalizeFlags := true, validate := true }

def checking : Config := { validate := true }

def clocked : Config := { wrapper := true, validate := true }

/-- One field of the state an operation answers with. -/
def after {α : Type} (i : Instr) (s : State) (f : State → Option α) : Option α :=
  match exec i s with
  | .next t => f t
  | .fault _ => none
  | .refused _ => none

/-- The descriptor ENCODE drives. -/
def encoded (c : Config) (P : TimingParameters) : Option Descriptor := after .encode (on c P) State.settled

/-- One field of the state a step answers with. -/
def stepped {α : Type} (s : State) (f : State → Option α) : Option α :=
  match step s with
  | .next t => f t
  | .fault _ => none
  | .refused _ => none

/-! ### WellFormed: each check refuses an ill-formed term -/

theorem test_config_legal : Config.default.legal ∧ ¬({ pclkInW := 29 } : Config).legal ∧ ¬({ pInW := 11 } : Config).legal := by
  decide

theorem test_fits_refuses_wide_pixel_clock :
    ({ pixelClockHz := 2 ^ 32 - 1 } : TimingParameters).fits Config.default ∧
    ¬({ pixelClockHz := 2 ^ 32 } : TimingParameters).fits Config.default := by decide

theorem test_fits_refuses_a_wide_value_on_each_other_port :
    ∀ f ∈ [Field.horzAddrPx, .horzBlankPx, .vertAddrLines, .vertBlankLines, .horzFrontPorchPx, .horzSyncPulsePx,
      .vertFrontPorchLines, .vertSyncPulseLines, .horzImageMm, .vertImageMm, .horzBorderPx, .vertBorderLines, .syncFlags],
      (setPort ref f 65535).fits Config.default ∧ ¬(setPort ref f 65536).fits Config.default := by decide

theorem test_wf_refuses_wide_mask_operand :
    (Instr.mask .w12 (2 ^ 32 - 1)).wf Config.default ∧ ¬(Instr.mask .w12 (2 ^ 32)).wf Config.default := by decide

theorem test_wf_refuses_bad_slices :
    (Instr.slice 5 255 255).wf Config.default ∧ ¬(Instr.slice 5 3 4).wf Config.default ∧
    ¬(Instr.slice 5 256 0).wf Config.default ∧ ¬(Instr.slice (2 ^ 32) 7 0).wf Config.default := by decide

/-! ### Decode: words written out, and every rejection by name -/

/-- The operations with no value operand: their position (the row of the operation map, R61), then P1's bundle. -/
theorem test_decode_port_operations :
    ∀ p ∈ [((0 : Byte), Instr.encode), (1, .pcq), (6, .lane0), (7, .lane1), (8, .lane2), (9, .lane3), (10, .lane4),
      (11, .lane5), (12, .lane6), (13, .lane7), (14, .lane8), (15, .lane9), (16, .lane10), (17, .lane11), (18, .lane12),
      (19, .lane13), (20, .lane14), (21, .lane15), (22, .lane16), (23, .lane17), (24, .lane17Gen), (25, .validate)],
      decode Config.default (p.1 :: refBundle) = .ok (p.2, ref) := by decide

theorem test_decode_mask :
    decode Config.default ([0x02, 12, 0x88, 0x13, 0x00, 0x00] ++ refBundle) = .ok (.mask .w12 5000, ref) := by decide

theorem test_decode_slice :
    decode Config.default ([0x03, 11, 8, 0x80, 0x04, 0x00, 0x00] ++ refBundle) = .ok (.slice 1152 11 8, ref) := by decide

theorem test_decode_nibpack :
    decode Config.default ([0x04, 0b10100001] ++ refBundle) = .ok (.nibpack 0xA 0x1, ref) := by decide

theorem test_decode_pairpack :
    decode Config.default ([0x05, 0b10010011] ++ refBundle) = .ok (.pairpack 2 1 0 3, ref) := by decide

theorem test_decode_mix_bundle : decode Config.default (0x00 :: mixBundle) = .ok (.encode, mix) := by decide

theorem test_decode_empty : decode Config.default [] = .error .emptyWord := by decide

theorem test_decode_unknown_position : decode Config.default (26 :: refBundle) = .error .unknownPosition := by decide

theorem test_decode_truncated : decode Config.default (0x00 :: refBundle.dropLast) = .error .truncated := by decide

theorem test_decode_trailing : decode Config.default (0x00 :: refBundle ++ [0]) = .error .trailing := by decide

theorem test_decode_mask_width :
    decode Config.default ([0x02, 7, 0x88, 0x13, 0x00, 0x00] ++ refBundle) = .error .maskWidth := by decide

theorem test_decode_slice_order :
    decode Config.default ([0x03, 8, 11, 0x80, 0x04, 0x00, 0x00] ++ refBundle) = .error .sliceOrder := by decide

/-- A 12-bit port held in two bytes cannot carry 0x1000 (R24, I1). -/
theorem test_decode_port_range :
    decode { pInW := 12 } ([0x00, 0xF0, 0x4C, 0x28, 0x04, 0x00, 0x10] ++ refBundle.drop 6) = .error .portRange := by decide

theorem test_encode_writes_the_reference_bundle : encode Config.default .encode ref = 0x00 :: refBundle := by decide

/-! ### The patterns of spec/opcode_table.json -/

/-- ENCODE's row: the packed descriptor of P1, lane 17 leftmost (spec/95 section 7). -/
theorem test_table_word_encode :
    decodeTableWord 144 0x1A00000000000034203030196040A0801B3F = some .encode ∧
    decodeTableWord 144 0x1800000000000034203030196040A0801B3F = none := by decide

theorem test_table_word_pcq : decodeTableWord 16 0x1B3F = some .pcq := by decide

theorem test_table_word_lane17 : decodeTableWord 8 0b00011010 = some .lane17 ∧ decodeTableWord 8 0x3F = none := by decide

/-- Placed first, the pattern of ENCODE's row runs as the first transaction after reset and gives that descriptor back. -/
theorem test_fetch_encode :
    stepped (State.reset.withFetchWord 144 0x1A00000000000034203030196040A0801B3F) (fun t => t.settled.map packed) =
      some 0x1A00000000000034203030196040A0801B3F := by decide

theorem test_fetch_pcq : stepped (State.reset.withFetchWord 16 0x1B3F) (fun t => t.qNet) = some 0x1B3F := by decide

theorem test_fetch_lane17 : stepped (State.reset.withFetchWord 8 0x1A) (fun t => t.lanes[17]) = some 0x1A := by decide

/-! ### PCQ (spec/95 section 2) -/

theorem test_pcq_count :
    ∀ p ∈ [(0, (0 : Count)), (4999, 0), (5000, 1), (9999, 1), (10000, 1), (14999, 1), (15000, 2), (65536, 7),
      (25175000, 0x09D6), (69499990, 0x1B26), (69745000, 0x1B3F), (69749990, 0x1B3F), (148500000, 0x3A02),
      (655354999, 0xFFFF), (655355000, 0), (655359999, 0), (694999990, 0x0F7C), (725110000, 6975), (1000000000, 0x86A0),
      (4294962296, 0x8DB8), (4294967295, 0x8DB9)], pcqCount p.1 = p.2 := by decide

theorem test_pcq_fills_lanes_0_and_1 :
    after .pcq (on {} ref) (fun t => t.qNet) = some 6975 ∧ after .pcq (on {} ref) (fun t => t.lanes[0]) = some 0x3F ∧
    after .pcq (on {} ref) (fun t => t.lanes[1]) = some 0x1B ∧ after .pcq (on {} ref) (fun t => t.lanes[2]) = none := by decide

/-! ### MASK and SLICE (spec/95 section 3) -/

theorem test_mask :
    ∀ p ∈ [(MaskWidth.w6, 63, 63), (.w6, 64, 0), (.w6, 65, 1), (.w8, 256, 0), (.w8, 300, 0x2C), (.w10, 1023, 1023),
      (.w10, 1025, 1), (.w12, 4095, 4095), (.w12, 4096, 0), (.w12, 5000, 0x388), (.w16, 65536, 0), (.w16, 69500, 3964)],
      after (.mask p.1 p.2.1) State.reset (fun t => t.maskNet) = some ⟨widthOf p.1, p.2.2⟩ := by decide

theorem test_slice :
    ∀ p ∈ [(1152, 11, 8, 4, 4), (1152, 7, 0, 8, 0x80), (5000, 11, 8, 4, 3), (0x3FF, 9, 8, 2, 3), (0x3F, 5, 4, 2, 3),
      (0x3F, 3, 0, 4, 0xF), (3, 5, 4, 2, 0)],
      after (.slice p.1 p.2.1 p.2.2.1) State.reset (fun t => t.sliceNet) = some ⟨p.2.2.2.1, p.2.2.2.2⟩ := by decide

theorem test_slice_out_of_order : exec (.slice 3 4 5) State.reset = .refused .sliceOrder := rfl

/-! ### NIBPACK and PAIRPACK (spec/95 section 4) -/

/-- The byte NIBPACK leaves. -/
def nib (h l : Nibble) : Option Byte := after (.nibpack h l) State.reset (fun t => t.nibNet)

/-- The byte PAIRPACK leaves. -/
def pair (a b c d : Pair) : Option Byte := after (.pairpack a b c d) State.reset (fun t => t.pairNet)

theorem test_nibpack :
    nib 4 0 = some 0x40 ∧ nib 3 4 = some 0x34 ∧ nib 0xA 0x1 = some 0xA1 ∧ nib 0xF 0xF = some 0xFF ∧ nib 0 0 = some 0 := by
  decide

theorem test_pairpack :
    pair 2 0 0 0 = some 0x80 ∧ pair 0 1 0 0 = some 0x10 ∧ pair 0 0 1 0 = some 0x04 ∧ pair 0 0 0 2 = some 0x02 ∧
    pair 3 3 3 3 = some 0xFF := by decide

/-! ### The lanes, one by one (the worked examples of spec/43) -/

/-- Each lane operation on Ref drives its own lane. -/
theorem test_lanes_on_ref :
    ∀ p ∈ [(Instr.lane0, (0 : Fin 18), (0x3F : Byte)), (.lane1, 1, 0x1B), (.lane2, 2, 0x80), (.lane3, 3, 0xA0),
      (.lane4, 4, 0x40), (.lane5, 5, 0x60), (.lane6, 6, 0x19), (.lane7, 7, 0x30), (.lane8, 8, 0x30), (.lane9, 9, 0x20),
      (.lane10, 10, 0x34), (.lane11, 11, 0x00), (.lane12, 12, 0), (.lane13, 13, 0), (.lane14, 14, 0), (.lane15, 15, 0),
      (.lane16, 16, 0), (.lane17, 17, 0x1A), (.lane17Gen, 17, 0x1A)],
      after p.1 (on {} ref) (fun t => t.lanes[p.2.1]) = some p.2.2 := by decide

/-- The lanes whose field is 0 in Ref, on MIX, and the flags byte in both modes (V-ENC-23, V-ENC-24). -/
theorem test_lanes_on_mix :
    ∀ p ∈ [(Instr.lane11, (11 : Fin 18), (0x3C : Byte)), (.lane12, 12, 0xFF), (.lane13, 13, 0xFF), (.lane14, 14, 0xFF),
      (.lane15, 15, 0x2C), (.lane16, 16, 0xFF)], after p.1 (on {} mix) (fun t => t.lanes[p.2.1]) = some p.2.2 := by decide

theorem test_flags_lane :
    after .lane17 (on {} mix) (fun t => t.lanes[17]) = some 0x1A ∧
    after .lane17Gen (on generalized mix) (fun t => t.lanes[17]) = some 0xFE := by decide

/-! ### ENCODE (spec/95 section 5) -/

theorem test_encode_ref : encoded {} ref =
    some #v[0x3F, 0x1B, 0x80, 0xA0, 0x40, 0x60, 0x19, 0x30, 0x30, 0x20, 0x34, 0, 0, 0, 0, 0, 0, 0x1A] := by decide

theorem test_encode_full_hd : encoded {} fullHd =
    some #v[0x02, 0x3A, 0x80, 0x18, 0x71, 0x38, 0x2D, 0x40, 0x58, 0x2C, 0x45, 0, 0x58, 0x54, 0x21, 0, 0, 0x1A] := by decide

theorem test_encode_nibbles : encoded {} nibbles =
    some #v[0, 0, 0xBC, 0x23, 0xA1, 0x56, 0x89, 0x47, 0, 0, 0, 0, 0xEF, 0xA5, 0xD5, 0, 0, 0x1A] := by decide

theorem test_encode_extremes :
    encoded {} (allOnes 0x1A) = some #v[0xFF, 0xFF, 0xFF, 0xFF, 0xFF, 0xFF, 0xFF, 0xFF, 0xFF, 0xFF, 0xFF, 0xFF, 0xFF, 0xFF,
      0xFF, 0xFF, 0xFF, 0x1A] ∧
    encoded {} (allBoundary 0x1A) = some #v[0, 0, 0, 0, 0, 0, 0, 0, 0, 0, 0, 0, 0, 0, 0, 0, 0, 0x1A] := by decide

theorem test_encode_mix_in_both_modes :
    encoded {} mix = some #v[0x70, 0x11, 0x88, 0xFF, 0x3F, 0, 1, 0, 0, 0xFF, 0xF0, 0x3C, 0xFF, 0xFF, 0xFF, 0x2C, 0xFF, 0x1A] ∧
    encoded generalized mix =
      some #v[0x70, 0x11, 0x88, 0xFF, 0x3F, 0, 1, 0, 0, 0xFF, 0xF0, 0x3C, 0xFF, 0xFF, 0xFF, 0x2C, 0xFF, 0xFE] := by decide

/-- V-ENC-6 to V-ENC-15: lanes 10 and 11, one field at a time. -/
theorem test_encode_split_fields :
    ∀ p ∈ [(Field.horzFrontPorchPx, 0x3FF, (0x00 : Byte), (0xC0 : Byte)), (.horzFrontPorchPx, 0x200, 0, 0x80),
      (.horzSyncPulsePx, 0x300, 0, 0x30), (.horzSyncPulsePx, 0x100, 0, 0x10), (.vertFrontPorchLines, 0x30, 0, 0x0C),
      (.vertFrontPorchLines, 0x10, 0, 0x04), (.vertFrontPorchLines, 0x3F, 0xF0, 0x0C), (.vertSyncPulseLines, 0x30, 0, 0x03),
      (.vertSyncPulseLines, 0x20, 0, 0x02), (.vertSyncPulseLines, 0x0F, 0x0F, 0)],
      (encoded {} (setPort {} p.1 p.2.1)).map (fun d => (d[10], d[11])) = some (p.2.2.1, p.2.2.2) := by decide

/-- UNPACK of V-ENC-23 (spec/95, round-trip checks). -/
theorem test_unpack_mix :
    (encoded {} mix).map unpack = some ⟨44640000, 904, 4095, 0, 1, 0, 1023, 63, 0, 4095, 4095, 44, 255, 0x1A⟩ := by decide

/-! ### VALIDATE (spec/95 section 6) -/

theorem test_validate :
    ∀ p ∈ [(ref, (0x0000 : OorVec)), ({ horzAddrPx := 5000 }, 0x0002), (allBoundary 256, 0x1FFF), (mix, 0x0B2B),
      ({ pixelClockHz := 655354999 }, 0), ({ pixelClockHz := 655355000 }, 1), ({ pixelClockHz := 65536 }, 0)],
      after .validate (on checking p.1) (fun t => t.oor) = some p.2 := by decide

theorem test_validate_generalized :
    ∀ p ∈ [(allOnes 255, (0x0000 : OorVec)), (allBoundary 256, 0x3FFF), (mix, 0x2B2B)],
      after .validate (on generalized p.1) (fun t => t.oor) = some p.2 := by decide

/-! ### P4 edge by edge (spec/95 section 7), each edge one step -/

/-- A state of the wrapper between two edges. -/
def held (valid : Option Bool) (d : Option Descriptor) (b : Beat) : State :=
  { State.resetWith clocked with outValidQ := valid, dtdQ := d, inputs := [b] }

def refDescriptor : Descriptor := #v[0x3F, 0x1B, 0x80, 0xA0, 0x40, 0x60, 0x19, 0x30, 0x30, 0x20, 0x34, 0, 0, 0, 0, 0, 0, 0x1A]

def fullHdDescriptor : Descriptor :=
  #v[0x02, 0x3A, 0x80, 0x18, 0x71, 0x38, 0x2D, 0x40, 0x58, 0x2C, 0x45, 0, 0x58, 0x54, 0x21, 0, 0, 0x1A]

def resetBeat : Beat := ⟨true, false, []⟩

def bubble : Beat := ⟨false, false, []⟩

theorem test_p4_edge_0 :
    stepped { State.powerUp clocked with inputs := [resetBeat] } (fun t => some (t.outValidQ, t.dtdQ)) =
      some (some false, none) := by decide

/-- R253, I4: without a reset edge an accepted record, or a bubble, gives no register a value. -/
theorem test_edge_before_reset :
    stepped { State.powerUp clocked with inputs := [⟨false, true, 0x00 :: refBundle⟩] }
      (fun t => some (t.outValidQ, t.dtdQ, t.oorQ)) = some (none, none, none) ∧
    stepped { State.powerUp clocked with inputs := [bubble] } (fun t => some (t.outValidQ, t.dtdQ, t.oorQ)) =
      some (none, none, none) := by decide

theorem test_p4_edge_1 :
    stepped (held (some false) none ⟨false, true, 0x00 :: refBundle⟩) (fun t => some (t.outValidQ, t.dtdQ)) =
      some (some true, some refDescriptor) := by decide

theorem test_p4_edge_2 :
    stepped (held (some true) (some refDescriptor) bubble) (fun t => some (t.outValidQ, t.dtdQ)) =
      some (some false, some refDescriptor) ∧
    stepped (held (some true) (some refDescriptor) bubble) (fun t => some t.readDtd) = some (.error .readInvalid) := by decide

theorem test_p4_edge_3 :
    stepped (held (some false) (some refDescriptor) (beatOf clocked .encode fullHd)) (fun t => some (t.outValidQ, t.dtdQ)) =
      some (some true, some fullHdDescriptor) := by decide

theorem test_p4_edge_5 :
    stepped (held (some true) (some refDescriptor) { beatOf clocked .encode fullHd with rst := true })
      (fun t => some (t.outValidQ, t.dtdQ)) = some (some false, none) := by decide

/-- The read a consumer makes in the cycle after an accepted record, and the report with it. -/
theorem test_wrapper_reads :
    stepped (held (some false) none (beatOf clocked .encode mix)) (fun t => some (t.readOutValid, t.readOor)) =
      some (.ok true, .ok 0x0B2B) := by decide

/-- A record the ports cannot carry is refused by name, and so is a word that selects nothing. -/
theorem test_step_refuses_undecodable :
    step { State.reset with inputs := [⟨false, true, [26]⟩] } = .refused (.undecodable .unknownPosition) := rfl

theorem test_readOor_absent : (on {} ref).readOor = .error .portAbsent := by decide

theorem test_reset_reads : State.reset.readDtd = .error .readUnsettled ∧ State.reset.readOutValid = .error .portAbsent := by
  decide

/-! ### Values that meet the hypotheses of the statements, clause by clause -/

/-- The state of the wrapper right after reset with beats to come. -/
def coming (bs : List Beat) : State := (State.resetWith clocked).withInputs bs

/-- The core with beats to come. -/
def feeding (bs : List Beat) : State := State.reset.withInputs bs

def refBeat : Beat := beatOf clocked .encode ref

def fullHdBeat : Beat := beatOf clocked .encode fullHd

theorem witness_ResetValueOfEveryPieceOfState :
    State.reset.cfg.wrapper = false ∧ (State.resetWith clocked).cfg.wrapper = true := by decide

theorem witness_WrapperRegistersAfterEachEdge :
    (coming [resetBeat]).cfg.wrapper = true ∧ (coming [resetBeat]).inputs = [resetBeat] ∧ resetBeat.rst = true ∧
    (coming [refBeat]).inputs = [refBeat] ∧ refBeat.rst = false ∧ refBeat.inValid = true ∧
    decode (coming [refBeat]).cfg refBeat.word = .ok (.encode, ref) ∧ (coming [refBeat]).cfg.validate = true ∧
    (coming [bubble]).inputs = [bubble] ∧ bubble.rst = false ∧ bubble.inValid = false ∧ (coming [refBeat]).resetSeen = true := by
  decide

/-- The wrapper at power-up with beats to come. -/
def poweredUp (bs : List Beat) : State := (State.powerUp clocked).withInputs bs

theorem witness_WrapperRegistersAfterEachEdge_before_reset :
    (poweredUp [refBeat]).cfg.wrapper = true ∧ (poweredUp [refBeat]).inputs = [refBeat] ∧
    (poweredUp [refBeat]).resetSeen = false ∧ refBeat.rst = false ∧
    decode (poweredUp [refBeat]).cfg refBeat.word = .ok (.encode, ref) ∧ (poweredUp [bubble]).inputs = [bubble] ∧
    (poweredUp [bubble]).resetSeen = false ∧ bubble.inValid = false := by decide

/-- An accepted beat that names another operation than ENCODE. -/
theorem witness_EveryAcceptedBeatCapturesItsRecord :
    (coming [beatOf clocked .lane4 mix]).cfg.wrapper = true ∧
    (coming [beatOf clocked .lane4 mix]).inputs = [beatOf clocked .lane4 mix] ∧ (beatOf clocked .lane4 mix).rst = false ∧
    (beatOf clocked .lane4 mix).inValid = true ∧
    decode (coming [beatOf clocked .lane4 mix]).cfg (beatOf clocked .lane4 mix).word = .ok (.lane4, mix) ∧
    (coming [beatOf clocked .lane4 mix]).resetSeen = true ∧ (poweredUp [beatOf clocked .lane4 mix]).resetSeen = false ∧
    (poweredUp [beatOf clocked .lane4 mix]).inputs = [beatOf clocked .lane4 mix] := by decide

theorem witness_ResetEdgeDiscardsAndHoldsUntilAccepted :
    (coming [{ refBeat with rst := true }, bubble, resetBeat, fullHdBeat]).cfg.wrapper = true ∧
    ({ refBeat with rst := true } : Beat).rst = true ∧
    (∀ b ∈ [bubble, resetBeat], b.rst = true ∨ b.inValid = false) ∧
    (coming [{ refBeat with rst := true }, bubble, resetBeat, fullHdBeat]).inputs =
      { refBeat with rst := true } :: [bubble, resetBeat] ++ [fullHdBeat] := by decide

theorem witness_LeavingResetFirstRecordIsVisible :
    (coming [resetBeat, bubble, refBeat]).cfg.wrapper = true ∧ resetBeat.rst = true ∧
    (∀ b ∈ [bubble], b.rst = false ∧ b.inValid = false) ∧ refBeat.rst = false ∧ refBeat.inValid = true ∧
    decode (coming [resetBeat, bubble, refBeat]).cfg refBeat.word = .ok (.encode, ref) ∧
    (coming [resetBeat, bubble, refBeat]).inputs = resetBeat :: [bubble] ++ refBeat :: [] := by decide

theorem witness_PowerUpAdmitsNoObservation :
    clocked.wrapper = true ∧ clocked.validate = true ∧
    ∀ b ∈ [bubble, refBeat], b.rst = false ∧ (b.inValid = true → ∃ i P, decode clocked b.word = .ok (i, P)) := by
  refine ⟨rfl, rfl, fun b hb => ?_⟩
  simp only [List.mem_cons, List.not_mem_nil, or_false] at hb
  rcases hb with rfl | rfl
  · exact ⟨rfl, nofun⟩
  · exact ⟨rfl, fun _ => ⟨.encode, ref, by decide⟩⟩

theorem witness_OutputsReadableOnlyWhileValid :
    (coming [refBeat]).cfg.wrapper = true ∧ (coming [refBeat]).readOutValid ≠ .ok true ∧ (coming [refBeat]).resetSeen = true ∧
    (coming [refBeat]).inputs = [refBeat] ∧ refBeat.rst = false ∧ refBeat.inValid = true ∧
    decode (coming [refBeat]).cfg refBeat.word = .ok (.encode, ref) ∧ (coming [refBeat]).cfg.validate = true := by decide

theorem witness_WrapperAndCoreGiveTheSameDescriptor :
    (State.resetWith checking).cfg.wrapper = false ∧ clocked = { (State.resetWith checking).cfg with wrapper := true } ∧
    (coming [refBeat]).cfg = clocked ∧ (coming [refBeat]).resetSeen = true ∧
    ((State.resetWith checking).withInputs [refBeat]).inputs = [refBeat] ∧ (coming [refBeat]).inputs = [refBeat] ∧
    decode checking refBeat.word = .ok (.encode, ref) := by decide

/-- Two histories: right after reset, and after another record. -/
theorem witness_OutputsIndependentOfHistory :
    (held (some true) (some fullHdDescriptor) refBeat).cfg = (coming [refBeat]).cfg ∧ (coming [refBeat]).Observable ∧
    (held (some true) (some fullHdDescriptor) refBeat).Observable ∧ (coming [refBeat]).inputs = [refBeat] ∧
    (held (some true) (some fullHdDescriptor) refBeat).inputs = [refBeat] ∧
    decode (coming [refBeat]).cfg refBeat.word = .ok (.encode, ref) := by
  exact ⟨rfl, fun _ => rfl, fun _ => rfl, rfl, rfl, by decide⟩

theorem witness_EveryTransactionGetsItsOwnRecord :
    (feeding [beatOf {} .encode ref, beatOf {} .encode mix]).Observable ∧
    (∀ P ∈ [ref, mix], P.fits (feeding [beatOf {} .encode ref, beatOf {} .encode mix]).cfg) ∧
    (feeding [beatOf {} .encode ref, beatOf {} .encode mix]).inputs =
      [ref, mix].map (beatOf (feeding [beatOf {} .encode ref, beatOf {} .encode mix]).cfg .encode) ++ [] ∧
    1 < [ref, mix].length := by
  exact ⟨fun h => absurd h (by decide), by decide, by decide, by decide⟩

theorem witness_ChangedInputsUnsettleTheOutputs :
    (on checking ref).cfg.wrapper = false ∧ (on checking ref).cfg.validate = true ∧ fullHd ≠ (on checking ref).ports := by decide

/-- A consistent state whose outputs may be read. -/
theorem witness_ReadOutputsAreOneRecord :
    ({ on clocked ref with outValidQ := some true, dtdQ := some refDescriptor, oorQ := some 0 } : State).Consistent ∧
    ({ on clocked ref with outValidQ := some true, dtdQ := some refDescriptor, oorQ := some 0 } : State).readOutValid =
      .ok true := by
  refine ⟨⟨?_, ?_, ?_, fun _ _ => ⟨by decide, fun _ => by decide⟩, fun _ => by decide, fun h => absurd h (by decide),
    fun h => absurd h (by decide), fun d hd => ⟨ref, by decide, ?_⟩, by decide⟩, by decide⟩
  · intro k b hb
    simp [on, State.resetWith] at hb
  · nofun
  · nofun
  · have e : refDescriptor = d := Option.some.inj hd
    rw [← e]; decide

theorem witness_EveryFieldBitIsPlacedExactlyOnce :
    15 < fieldWidth .pixelClockHz ∧ 5 < fieldWidth .vertSyncPulseLines ∧ 7 < fieldWidth .syncFlags ∧
    bitSource true 17 7 = .port .syncFlags 7 ∧ bitSource false 1 7 = .count 15 := by decide

theorem witness_PackUnpackRoundTrip :
    generalized.generalizeFlags = true ∧ refDescriptor[17] = 0x1A ∧ Sys2Proof.Field.horzAddrPx ≠ .pixelClockHz ∧
    Sys2Proof.Field.horzAddrPx ≠ .syncFlags := by decide

theorem witness_ExactlyWhichDescriptorsAreProduced :
    ({ pclkInW := 30, pInW := 12 } : Config).legal ∧ Config.default.legal := by decide

theorem witness_RoundingIsToNearestTiesUp : 4999 < 10000 ∧ 4999 < 5000 ∧ 5000 ≤ 5000 ∧ 9999 < 10000 ∧ 5000 ≤ 9999 := by decide

theorem witness_AdderOfOneMoreBitIsExact : 30 ≤ 32 ∧ 32 + 1 ≤ 33 ∧ 4294967295 < 2 ^ 32 := by decide

theorem witness_ExtremesOfTheCount : 4999 ≤ 4999 ∧ quotient 655355000 = 65536 ∧ quotient 655364999 = 65536 := by decide

theorem witness_MaskKeepsTheLowBits : 65536 = 2 ^ widthOf .w16 ∧ 63 = 2 ^ widthOf .w6 - 1 := by decide

theorem witness_SliceExtractsTheBits : 5 ≤ 5 ∧ 31 < 2 ^ 5 := by decide

theorem witness_SliceOutOfOrderIsRefused : 4 < 5 := by decide

theorem witness_MaskBeforeSliceChangesNothing : 8 ≤ 11 ∧ 11 < 12 := by decide

theorem witness_DescriptorIndependentOfPortWidth :
    (setPort ref .horzAddrPx 5248).pixelClockHz = ref.pixelClockHz ∧
    (∀ f : Sys2Proof.Field, f ≠ .pixelClockHz →
      portValue (setPort ref .horzAddrPx 5248) f % 2 ^ fieldWidth f = portValue ref f % 2 ^ fieldWidth f) ∧
    Sys2Proof.Field.horzAddrPx ≠ .pixelClockHz ∧ fieldWidth .horzAddrPx ≤ 12 := by
  exact ⟨rfl, fun f _ => by cases f <;> decide, by decide, by decide⟩

theorem witness_MaskingBoundaryOfEveryField :
    Sys2Proof.Field.syncFlags ≠ .pixelClockHz ∧ quotient 725110000 = 2 ^ 16 * 1 + quotient 69750000 := by decide

theorem witness_NoFieldDisturbsAnother :
    (bitSource false 10 3).field ≠ some .vertFrontPorchLines ∧ (bitSource false 11 1).field ≠ some .vertFrontPorchLines := by
  decide

theorem witness_ClockLanes :
    (on {} { pixelClockHz := 4999 }).ports.pixelClockHz < 5000 ∧ (on {} { pixelClockHz := 2554999 }).ports.pixelClockHz < 2555000 := by
  decide

theorem witness_FlagsLane :
    (on {} mix).cfg.generalizeFlags = false ∧ (on generalized mix).cfg.generalizeFlags = true ∧
    ({ syncFlags := 0x11A } : TimingParameters).syncFlags % 256 = 0x1A := by decide

/-- All 18 lanes, in reverse order, one of them twice. -/
def laneProgram : List Instr :=
  [.lane17, .lane16, .lane15, .lane14, .lane13, .lane12, .lane11, .lane10, .lane9, .lane8, .lane7, .lane6, .lane5, .lane4,
    .lane3, .lane2, .lane1, .lane0, .lane17Gen]

theorem witness_LaneOperationsComposeToEncode :
    (∀ i ∈ laneProgram, laneOf i ≠ none) ∧ (∀ k : Fin 18, ∃ i ∈ laneProgram, laneOf i = some k) := by decide

theorem witness_ValidateReportsEachField :
    (on checking ref).cfg.validate = true ∧ Sys2Proof.Field.horzAddrPx ≠ .pixelClockHz ∧
    Sys2Proof.Field.horzAddrPx ≠ .syncFlags := by decide

theorem witness_WithoutValidateNothingIsReported : (on {} ref).cfg.validate = false := by decide

theorem witness_EachFieldReportsInItsOwnBit : Sys2Proof.Field.horzBlankPx ≠ .horzAddrPx := by decide

theorem witness_ReportIsExactlyTruncation :
    generalized.generalizeFlags = true ∧ oorOf generalized (allOnes 255) = 0 ∧ oorOf generalized (allBoundary 256) ≠ 0 := by decide

theorem witness_OperationsChangeOnlyTheirOutputs :
    (∃ t, exec .lane4 (on {} ref) = .next t) ∧ drives .lane4 5 = false ∧ (∃ t, exec .pcq (on {} ref) = .next t) ∧
    drives .pcq 2 = false ∧ (∃ t, exec (.mask .w12 5000) (on {} ref) = .next t) := by
  exact ⟨⟨_, rfl⟩, by decide, ⟨_, rfl⟩, by decide, ⟨_, rfl⟩⟩

/-- On the core a beat's pins are not looked at; on the wrapper they accept. -/
theorem witness_StepRunsTheDecodedOperation :
    (feeding [⟨true, false, 0x01 :: refBundle⟩]).inputs = [⟨true, false, 0x01 :: refBundle⟩] ∧
    (feeding [⟨true, false, 0x01 :: refBundle⟩]).cfg.wrapper = false ∧
    decode (feeding [⟨true, false, 0x01 :: refBundle⟩]).cfg (0x01 :: refBundle) = .ok (.pcq, ref) ∧
    (coming [refBeat]).cfg.wrapper = true ∧ refBeat.rst = false ∧ refBeat.inValid = true ∧
    decode (coming [refBeat]).cfg refBeat.word = .ok (.encode, ref) := by decide

theorem witness_EveryRecordIsAccepted :
    mix.fits (feeding [beatOf {} .encode mix]).cfg ∧ Instr.encode.wf (feeding [beatOf {} .encode mix]).cfg ∧
    (feeding [beatOf {} .encode mix]).inputs = [beatOf (feeding [beatOf {} .encode mix]).cfg .encode mix] ∧
    (feeding [beatOf {} .encode mix]).Observable := by
  exact ⟨by decide, trivial, by decide, fun h => absurd h (by decide)⟩

theorem witness_NoStepChangesTheConfiguration : ∃ t, step (coming [refBeat]) = .next t := by
  obtain ⟨t, _, h⟩ := step_accepted (coming [refBeat]) refBeat [] .encode ref rfl (fun _ => ⟨rfl, rfl⟩) (by decide)
  exact ⟨_, h⟩

theorem witness_IdleStepAcceptsNothing :
    State.reset.inputs = [] ∧ State.reset.cfg.wrapper = false ∧ (coming []).inputs = [] ∧ (coming []).cfg.wrapper = true ∧
    (coming []).resetSeen = true ∧ (poweredUp []).inputs = [] ∧ (poweredUp []).cfg.wrapper = true ∧
    (poweredUp []).resetSeen = false := by decide

theorem witness_DecodeOfEncodeIsTheTransaction :
    (Instr.slice (2 ^ 32 - 1) 255 255).wf Config.default ∧ (Instr.mask .w6 0).wf Config.default ∧
    ({ pixelClockHz := 2 ^ 32 - 1, syncFlags := 65535 } : TimingParameters).fits Config.default := by decide

theorem witness_EveryAcceptedWordIsAnEncoding : decode Config.default (0x00 :: mixBundle) = .ok (.encode, mix) := by decide

theorem witness_StepKeepsTheOutputsConsistent :
    (coming [refBeat]).Consistent ∧ ∃ t, step (coming [refBeat]) = .next t := by
  refine ⟨⟨?_, nofun, nofun, fun _ h => by simp [coming, State.resetWith, State.withInputs] at h, fun _ => by decide,
    fun h => absurd h (by decide), fun _ => rfl, nofun, by decide⟩, witness_NoStepChangesTheConfiguration⟩
  intro k b hb
  simp [coming, State.resetWith, State.withInputs] at hb

end Sys2Proof.Tests
end

section
/-!
SUPPORT. The reads of the wrapper's outputs, and the step that accepts an ENCODE record: the rules the statements about the
state are assembled from (spec/10_state.md R25 to R32).
-/

namespace Sys2Proof.Machine

section Reads

variable (s : State)

theorem State.readOutValid_of_some (v : Bool) (hw : s.cfg.wrapper = true) (hs : s.resetSeen = true)
    (hv : s.outValidQ = some v) : s.readOutValid = .ok v := by
  simp [State.readOutValid, hw, hs, hv]

/-- Only a cycle with `out_valid` = 1 gives a register's value (R30). -/
theorem State.readHeld_fault {α : Type} (register : Option α) (h : s.readOutValid ≠ .ok true) :
    ∃ f, s.readHeld register = .error f := by
  unfold State.readHeld
  rcases hv : s.readOutValid with f | v
  · exact ⟨f, rfl⟩
  · cases v
    · exact ⟨.readInvalid, rfl⟩
    · exact absurd hv h

theorem State.readHeld_of_invalid {α : Type} (register : Option α) (h : s.readOutValid = .ok false) :
    s.readHeld register = .error .readInvalid := by
  simp [State.readHeld, h]

theorem State.readHeld_of_valid {α : Type} (v : α) (h : s.readOutValid = .ok true) :
    s.readHeld (some v) = .ok v := by
  simp [State.readHeld, h]

/-- The wrapper drives `dtd = dtd_q` (R28). -/
theorem State.readDtd_wrapper (hw : s.cfg.wrapper = true) : s.readDtd = s.readHeld s.dtdQ := by
  simp [State.readDtd, hw]

/-- The wrapper's lanes are those of the descriptor it drives (R25, R28). -/
theorem State.readLane_wrapper (hw : s.cfg.wrapper = true) (k : Fin 18) :
    s.readLane k = (s.readHeld s.dtdQ).map (·[k]) := by
  simp only [State.readLane, hw, if_true]
  cases s.readHeld s.dtdQ <;> rfl

/-- The wrapper drives `oor = oor_q` (R28), where the port exists (R200). -/
theorem State.readOor_wrapper (hw : s.cfg.wrapper = true) :
    s.readOor = if s.cfg.validate then s.readHeld s.oorQ else .error .portAbsent := by
  simp [State.readOor, hw]

/-- The core drives its 18 lanes (R25). -/
theorem State.readDtd_core_iff (d : Descriptor) (hw : s.cfg.wrapper = false) :
    s.readDtd = .ok d ↔ s.settled = some d := by
  simp only [State.readDtd, hw, Bool.false_eq_true, if_false]
  cases s.settled <;> simp

theorem State.readLane_core (k : Fin 18) (b : Byte) (hw : s.cfg.wrapper = false) (h : s.lanes[k] = some b) :
    s.readLane k = .ok b := by
  simp only [State.readLane, hw, h, Bool.false_eq_true, if_false]

theorem State.readOor_core (v : OorVec) (hw : s.cfg.wrapper = false) (hv : s.cfg.validate = true)
    (h : s.oor = some v) : s.readOor = .ok v := by
  simp [State.readOor, hw, hv, h]

/-- A lane is read from the descriptor that is read, in the core and in the wrapper (R25, R41). -/
theorem State.readLane_of_readDtd (d : Descriptor) (k : Fin 18) (h : s.readDtd = .ok d) : s.readLane k = .ok d[k] := by
  cases hw : s.cfg.wrapper
  · rw [State.readDtd_core_iff s d hw, settled_eq_some_iff] at h
    exact State.readLane_core s k d[k] hw (h k)
  · rw [State.readLane_wrapper s hw, ← State.readDtd_wrapper s hw, h]
    rfl

/-- The port `oor` is absent where VALIDATE = 0, in the core and in the wrapper (R200). -/
theorem State.readOor_absent (hv : s.cfg.validate = false) : s.readOor = .error .portAbsent := by
  simp [State.readOor, hv]

end Reads

section EncodeStep

/-- The record P presented and ENCODE evaluated on it; the edge that follows is `clockEdge`. -/
def State.evaluateEncode (s : State) (P : TimingParameters) : State :=
  ((s.present P).setLanes (descriptor s.cfg P)).setOor (oorOf s.cfg P)

variable (s : State) (P : TimingParameters)

theorem exec_encode_present : exec .encode (s.present P) = .next (s.evaluateEncode P) := by
  rw [exec, execEncode_eq, State.present_cfg, State.present_ports, State.evaluateEncode]

@[simp] theorem State.evaluateEncode_cfg : (s.evaluateEncode P).cfg = s.cfg := by simp [State.evaluateEncode]
@[simp] theorem State.evaluateEncode_ports : (s.evaluateEncode P).ports = P := by simp [State.evaluateEncode]
@[simp] theorem State.evaluateEncode_lanes :
    (s.evaluateEncode P).lanes = Vector.ofFn fun k => some (descriptor s.cfg P)[k] := by simp [State.evaluateEncode]
@[simp] theorem State.evaluateEncode_settled : (s.evaluateEncode P).settled = some (descriptor s.cfg P) := by
  simp [State.evaluateEncode]
@[simp] theorem State.evaluateEncode_oor :
    (s.evaluateEncode P).oor = if s.cfg.validate then some (oorOf s.cfg P) else none := by simp [State.evaluateEncode]
@[simp] theorem State.evaluateEncode_resetSeen : (s.evaluateEncode P).resetSeen = s.resetSeen := by
  simp [State.evaluateEncode]
@[simp] theorem State.evaluateEncode_inputs : (s.evaluateEncode P).inputs = s.inputs := by
  simp [State.evaluateEncode]

/-- The step that accepts an ENCODE record: evaluate it, then take the edge (R31). -/
theorem step_encode (b : Beat) (rest : List Beat) (h : s.inputs = b :: rest)
    (hp : s.cfg.wrapper = true → b.rst = false ∧ b.inValid = true) (hd : decode s.cfg b.word = .ok (.encode, P)) :
    step s = .next (((s.withInputs rest).evaluateEncode P).clockEdge false true) := by
  obtain ⟨u, hu, hstep⟩ := step_accepted s b rest .encode P h hp hd
  rw [exec_encode_present] at hu
  cases hu
  exact hstep

/-- In the core that edge is none (R250). -/
theorem State.evaluateEncode_clockEdge_core (hw : s.cfg.wrapper = false) :
    (s.evaluateEncode P).clockEdge false true = s.evaluateEncode P :=
  State.clockEdge_core _ _ _ (by simpa using hw)

/-- In the wrapper, once a reset edge has been taken, it captures the record (R29). -/
theorem State.evaluateEncode_clockEdge_accept (hw : s.cfg.wrapper = true) (hs : s.resetSeen = true) :
    (s.evaluateEncode P).clockEdge false true = (s.evaluateEncode P).acceptEdge :=
  State.clockEdge_accept _ (by simpa using hw) (by simpa using hs)

/-- Before the first reset edge it captures nothing (R253). -/
theorem State.evaluateEncode_clockEdge_preReset (hw : s.cfg.wrapper = true) (hs : s.resetSeen = false) :
    (s.evaluateEncode P).clockEdge false true = (s.evaluateEncode P).preResetEdge :=
  State.clockEdge_preReset _ true (by simpa using hw) (by simpa using hs)

theorem State.evaluateEncode_readOutValid (hw : s.cfg.wrapper = true) (hs : s.resetSeen = true) :
    ((s.evaluateEncode P).clockEdge false true).readOutValid = .ok true := by
  rw [State.evaluateEncode_clockEdge_accept s P hw hs]
  exact State.readOutValid_of_some _ true (by simpa using hw) (by simpa using hs) rfl

/-- After the edge an observable state gives the record's ENCODE, whatever it held before (R26, R30). -/
theorem State.evaluateEncode_readDtd (ho : s.Observable) :
    ((s.evaluateEncode P).clockEdge false true).readDtd = .ok (descriptor s.cfg P) := by
  cases hw : s.cfg.wrapper
  · rw [State.evaluateEncode_clockEdge_core s P hw, State.readDtd_core_iff _ _ (by simpa using hw),
      State.evaluateEncode_settled]
  · have hvalid := State.evaluateEncode_readOutValid s P hw (ho hw)
    rw [State.evaluateEncode_clockEdge_accept s P hw (ho hw)] at hvalid ⊢
    rw [State.readDtd_wrapper _ (by simpa using hw), State.acceptEdge_dtdQ, State.readHeld_of_valid _ _ hvalid,
      State.evaluateEncode_cfg, State.evaluateEncode_ports]

theorem State.evaluateEncode_readLane (ho : s.Observable) (k : Fin 18) :
    ((s.evaluateEncode P).clockEdge false true).readLane k = .ok (descriptor s.cfg P)[k] :=
  State.readLane_of_readDtd _ _ k (State.evaluateEncode_readDtd s P ho)

/-- The report of the same record, where the port exists (R200, R201). -/
theorem State.evaluateEncode_readOor (ho : s.Observable) :
    ((s.evaluateEncode P).clockEdge false true).readOor =
      if s.cfg.validate then .ok (oorOf s.cfg P) else .error .portAbsent := by
  cases hc : s.cfg.validate
  · exact State.readOor_absent _ (by simpa using hc)
  cases hw : s.cfg.wrapper
  · rw [State.evaluateEncode_clockEdge_core s P hw]
    exact State.readOor_core _ _ (by simpa using hw) (by simpa using hc) (by simp [hc])
  · have hvalid := State.evaluateEncode_readOutValid s P hw (ho hw)
    rw [State.evaluateEncode_clockEdge_accept s P hw (ho hw)] at hvalid ⊢
    rw [State.readOor_wrapper _ (by simpa using hw)]
    simp [hc, State.readHeld_of_valid _ _ hvalid]

end EncodeStep

/-- Settles O1, from what an edge does to the core (R250) and what a reset edge does to the wrapper (R251). -/
theorem resetValueOfEveryPieceOfState : Obligations.ResetValueOfEveryPieceOfState := by
  refine ⟨fun s r v hw => State.clockEdge_core s r v hw, fun s v hw => ?_, fun c => ⟨rfl, rfl, rfl, rfl⟩, rfl, rfl, rfl⟩
  rw [State.clockEdge_reset s v hw]
  exact ⟨rfl, rfl, rfl, rfl⟩

/-- Settles O2, one kind of edge at a time: reset, an accepted record, a bubble, and an edge before the first reset edge. -/
theorem wrapperRegistersAfterEachEdge : Obligations.WrapperRegistersAfterEachEdge := by
  intro s b rest hw hin
  refine ⟨fun hr => ?reset, fun hs hr hv P hd => ?accepted, fun hs hr hv => ?bubble, fun hs hr hd => ?preReset⟩
  case reset => exact ⟨_, step_reset s b rest hw hin hr, rfl, rfl, rfl⟩
  case accepted =>
    refine ⟨_, step_encode s P b rest hin (fun _ => ⟨hr, hv⟩) hd, ?_⟩
    rw [State.evaluateEncode_clockEdge_accept (s.withInputs rest) P hw hs]
    exact ⟨rfl, by simp, fun hc => by simp [hc]⟩
  case bubble => exact ⟨_, step_bubble s b rest hw hs hin hr hv, rfl, rfl, rfl⟩
  case preReset =>
    cases hv : b.inValid
    · exact ⟨_, step_bubble_preReset s b rest hw hs hin hr hv, rfl, rfl, rfl, hs⟩
    · obtain ⟨P, hP⟩ := hd hv
      refine ⟨_, step_encode s P b rest hin (fun _ => ⟨hr, hv⟩) hP, ?_⟩
      rw [State.evaluateEncode_clockEdge_preReset (s.withInputs rest) P hw hs]
      exact ⟨rfl, rfl, rfl, by simpa using hs⟩

/-- Settles O7: every output of the wrapper is a read of a held register, so it faults while `out_valid` is not 1; the edge
that accepts a record sets `out_valid` and captures the record, and a reset edge clears it. -/
theorem outputsReadableOnlyWhileValid : Obligations.OutputsReadableOnlyWhileValid := by
  refine ⟨fun s hw hne => ⟨?dtd, fun k => ?lane, ?oor⟩, fun s b rest P hw hs hin hr hv hd => ?accepted, fun s v hw => ?reset⟩
  case dtd =>
    rw [State.readDtd_wrapper s hw]
    exact State.readHeld_fault s s.dtdQ hne
  case lane =>
    obtain ⟨f, hf⟩ := State.readHeld_fault s s.dtdQ hne
    exact ⟨f, by rw [State.readLane_wrapper s hw k, hf]; rfl⟩
  case oor =>
    rw [State.readOor_wrapper s hw]
    split
    · exact State.readHeld_fault s s.oorQ hne
    · exact ⟨_, rfl⟩
  case accepted =>
    have ho : (s.withInputs rest).Observable := fun _ => hs
    refine ⟨_, step_encode s P b rest hin (fun _ => ⟨hr, hv⟩) hd, State.evaluateEncode_readOutValid _ P hw hs,
      State.evaluateEncode_readDtd _ P ho, fun hc => ?_⟩
    rw [State.evaluateEncode_readOor _ P ho, State.withInputs_cfg, if_pos hc]
  case reset =>
    have hinvalid : s.resetEdge.readOutValid = .ok false := State.readOutValid_of_some s.resetEdge false hw rfl rfl
    rw [State.clockEdge_reset s v hw, State.readDtd_wrapper s.resetEdge hw]
    exact ⟨rfl, State.readHeld_of_invalid s.resetEdge none hinvalid⟩

/-- Settles O9: each output after the step is a function of the configuration and the record alone. -/
theorem outputsIndependentOfHistory : Obligations.OutputsIndependentOfHistory := by
  intro s s' b rest rest' P hcfg hobs hobs' hin hin' hr hv hd
  have ho : (s.withInputs rest).Observable := hobs
  have ho' : (s'.withInputs rest').Observable := hobs'
  refine ⟨_, _, step_encode s P b rest hin (fun _ => ⟨hr, hv⟩) hd,
    step_encode s' P b rest' hin' (fun _ => ⟨hr, hv⟩) (hcfg ▸ hd), ⟨_, State.evaluateEncode_readDtd _ P ho⟩, ?_, ?_, fun k => ?_⟩
  · simp [State.evaluateEncode_readDtd _ P ho, State.evaluateEncode_readDtd _ P ho', hcfg]
  · rw [State.evaluateEncode_readOor _ P ho, State.evaluateEncode_readOor _ P ho', State.withInputs_cfg,
      State.withInputs_cfg, hcfg]
  · simp [State.evaluateEncode_readLane _ P ho, State.evaluateEncode_readLane _ P ho', hcfg]

end Sys2Proof.Machine
end

section
/-!
SUPPORT. The packed vector lane by lane, and the order of the bytes: what the statements about the output format are assembled
from (spec/20_memory.md R40, R41).
-/

namespace Sys2Proof.Machine

/-- Lane k is cut out of the packed vector at `dtd[8k+7:8k]` (R41). -/
theorem packed_extractLsb' (d : Descriptor) (k : Fin 18) : (packed d).extractLsb' (8 * k.val) 8 = d[k] := by
  calc (packed d).extractLsb' (8 * k.val) 8
      = BitVec.ofNat 8 ((packed d).toNat / 2 ^ (8 * k.val)) := by rw [BitVec.extractLsb', Nat.shiftRight_eq_div_pow]
    _ = (descriptorOf (packed d).toNat)[k] := by simp [descriptorOf]
    _ = d[k] := by rw [descriptorOf_packed]

/-- Byte k of the packed vector has significance 2^(8k) (R41). -/
theorem packed_toNat_eq_sum (d : Descriptor) : (packed d).toNat = ∑ k : Fin 18, d[k].toNat * 2 ^ (8 * k.val) := by
  have hlist : d.toList = List.ofFn fun k : Fin 18 => d[k] := by
    rw [← Vector.toList_ofFn]
    exact congrArg Vector.toList Vector.ofFn_getElem.symm
  rw [packed_toNat, hlist, numberOf_ofFn]

/-- The byte at place k of the serial order is lane k (R41). -/
theorem encodeBytes_getElem? (c : Config) (P : TimingParameters) (k : Fin 18) :
    (encodeBytes c P)[k.val]? = some (descriptor c P)[k] :=
  List.getElem?_eq_getElem k.isLt

theorem lane0Byte_eq_extractLsb' (P : TimingParameters) :
    lane0Byte P = (pcqCount P.pixelClockHz).extractLsb' 0 8 := low8_count _

theorem lane1Byte_eq_extractLsb' (P : TimingParameters) :
    lane1Byte P = (pcqCount P.pixelClockHz).extractLsb' 8 8 := high8_count _

/-- A little-endian read of a count's two bytes, the low one first, gives the count (R40). -/
theorem count_high_append_low (q : Count) : q.extractLsb' 8 8 ++ q.extractLsb' 0 8 = q :=
  (BitVec.extractLsb'_append_extractLsb'_eq_extractLsb' (Nat.zero_add 8).symm).trans BitVec.extractLsb'_eq_self

/-- Settles O14, from the three orders of the lanes: by place in the vector, by significance, and by place in the bytes. -/
theorem packedVectorHoldsLaneKAtByteK : Obligations.PackedVectorHoldsLaneKAtByteK :=
  fun d => ⟨packed_extractLsb' d, packed_toNat_eq_sum d, encodeBytes_getElem?⟩

/-- Settles O13: lanes 0 and 1 are the low and the high byte of the count, and the two appended in either order. -/
theorem pixelClockIsLittleEndian : Obligations.PixelClockIsLittleEndian := by
  intro c P
  rw [descriptor_0, descriptor_1, lane0Byte_eq_extractLsb', lane1Byte_eq_extractLsb']
  exact ⟨rfl, rfl, count_high_append_low _, rfl⟩

end Sys2Proof.Machine
end

section
/-!
SUPPORT. The descriptor bit map of spec/30_encoding.md R63 row by row: a row spells a word when the row's sources, read from the
most significant bit down, have the values of the word's bits. A packer appends words, and a row of the table appends groups.
-/

namespace Sys2Proof.Machine

/-- The sources of a row, bit `w - 1` first, have the values of the bits of the word (R62). -/
def Spells (P : TimingParameters) (row : List BitSource) {w : Nat} (x : BitVec w) : Prop :=
  row.length = w ∧ ∀ i < w, x.getLsbD i = (row.getD (w - 1 - i) (.const false)).value P

section Rows

variable {P : TimingParameters}

/-- Two rows one after the other spell the two words appended, the first one on top. -/
theorem Spells.append {r r' : List BitSource} {w v : Nat} {x : BitVec w} {y : BitVec v}
    (hx : Spells P r x) (hy : Spells P r' y) : Spells P (r ++ r') (x ++ y) := by
  obtain ⟨hr, hx⟩ := hx
  obtain ⟨hr', hy⟩ := hy
  refine ⟨by rw [List.length_append, hr, hr'], fun i hi => ?_⟩
  rw [BitVec.getLsbD_append]
  split
  case isTrue hlow =>
    rw [hy i hlow, List.getD_append_right _ _ _ _ (by omega)]
    congr 2
    omega
  case isFalse hhigh =>
    rw [hx (i - v) (by omega), List.getD_append _ _ _ _ (by omega)]
    congr 2
    omega

/-- A group of one letter spells the bits of its field from `hi - (w - 1)` up. -/
theorem spells_group {w : Nat} {x : BitVec w} (f : Field) (hi : Nat)
    (h : ∀ i < w, x.getLsbD i = (portValue P f).testBit (hi - (w - 1 - i))) : Spells P (group f hi w) x := by
  refine ⟨by simp [group], fun i hlt => ?_⟩
  have hj : w - 1 - i < (group f hi w).length := by simp only [group, List.length_map, List.length_range]; omega
  rw [List.getD_eq_getElem _ _ hj, h i hlt]
  simp [group, BitSource.value]

/-- A group of the letter P spells the bits of the count. -/
theorem spells_countGroup {w : Nat} {x : BitVec w} (hi : Nat)
    (h : ∀ i < w, x.getLsbD i = (pcqCount P.pixelClockHz).getLsbD (hi - (w - 1 - i))) :
    Spells P (countGroup hi w) x := by
  refine ⟨by simp [countGroup], fun i hlt => ?_⟩
  have hj : w - 1 - i < (countGroup hi w).length := by simp only [countGroup, List.length_map, List.length_range]; omega
  rw [List.getD_eq_getElem _ _ hj, h i hlt]
  simp [countGroup, BitSource.value]

variable (P) (f : Field)

theorem spells_low8 : Spells P (group f 7 8) (low8 (portValue P f)) :=
  spells_group f 7 fun i hi => by
    rw [low8_getLsbD, decide_eq_true hi, Bool.true_and, show 7 - (8 - 1 - i) = i by omega]

theorem spells_high4 : Spells P (group f 11 4) (high4 (portValue P f)) :=
  spells_group f 11 fun i hi => by
    rw [high4_getLsbD, decide_eq_true hi, Bool.true_and, show 11 - (4 - 1 - i) = 8 + i by omega]

theorem spells_low4 : Spells P (group f 3 4) (low4 (portValue P f)) :=
  spells_group f 3 fun i hi => by
    rw [low4_getLsbD, decide_eq_true hi, Bool.true_and, show 3 - (4 - 1 - i) = i by omega]

theorem spells_bits9to8 : Spells P (group f 9 2) (bits9to8 (portValue P f)) :=
  spells_group f 9 fun i hi => by
    rw [bits9to8_getLsbD, decide_eq_true hi, Bool.true_and, show 9 - (2 - 1 - i) = 8 + i by omega]

theorem spells_bits5to4 : Spells P (group f 5 2) (bits5to4 (portValue P f)) :=
  spells_group f 5 fun i hi => by
    rw [bits5to4_getLsbD, decide_eq_true hi, Bool.true_and, show 5 - (2 - 1 - i) = 4 + i by omega]

theorem spells_lane0Byte : Spells P (countGroup 7 8) (lane0Byte P) :=
  spells_countGroup 7 fun i hi => by
    rw [lane0_bit, decide_eq_true hi, Bool.true_and, show 7 - (8 - 1 - i) = i by omega]

theorem spells_lane1Byte : Spells P (countGroup 15 8) (lane1Byte P) :=
  spells_countGroup 15 fun i hi => by
    rw [lane1_bit, decide_eq_true hi, Bool.true_and, show 15 - (8 - 1 - i) = 8 + i by omega]

variable {P}

/-- NIBPACK spells its two groups (R140). -/
theorem spells_nibpack {rh rl : List BitSource} {h l : Nibble} (hh : Spells P rh h) (hl : Spells P rl l) :
    Spells P (rh ++ rl) (nibpack h l) := by
  rw [nibpack_eq_append]
  exact hh.append hl

/-- PAIRPACK spells its four groups (R142). -/
theorem spells_pairpack {ra rb rc rd : List BitSource} {a b c d : Pair} (ha : Spells P ra a) (hb : Spells P rb b)
    (hc : Spells P rc c) (hd : Spells P rd d) : Spells P (ra ++ rb ++ rc ++ rd) (pairpack a b c d) := by
  rw [pairpack_eq_append]
  exact ((ha.append hb).append hc).append hd

/-- The constant row is FLAGS_CONST (R63). -/
theorem spells_flagsConst : Spells P ((layout false).getD 17 []) flagsConst := by
  refine ⟨rfl, fun i hi => ?_⟩
  interval_cases i <;> simp [layout, flagsConst, BitSource.value]

/-- The last row spells the flags byte in each of the two modes (R177). -/
theorem spells_lane17Byte (c : Config) (P : TimingParameters) :
    Spells P ((layout c.generalizeFlags).getD 17 []) (lane17Byte c P) := by
  unfold lane17Byte
  cases c.generalizeFlags
  · exact spells_flagsConst
  · exact spells_low8 P .syncFlags

end Rows

/-- Row k of the table spells lane k of ENCODE. -/
theorem spells_descriptor (c : Config) (P : TimingParameters) (k : Fin 18) :
    Spells P ((layout c.generalizeFlags).getD k.val []) (descriptor c P)[k] := by
  fin_cases k
  · exact spells_lane0Byte P
  · exact spells_lane1Byte P
  · exact spells_low8 P .horzAddrPx
  · exact spells_low8 P .horzBlankPx
  · exact spells_nibpack (spells_high4 P .horzAddrPx) (spells_high4 P .horzBlankPx)
  · exact spells_low8 P .vertAddrLines
  · exact spells_low8 P .vertBlankLines
  · exact spells_nibpack (spells_high4 P .vertAddrLines) (spells_high4 P .vertBlankLines)
  · exact spells_low8 P .horzFrontPorchPx
  · exact spells_low8 P .horzSyncPulsePx
  · exact spells_nibpack (spells_low4 P .vertFrontPorchLines) (spells_low4 P .vertSyncPulseLines)
  · exact spells_pairpack (spells_bits9to8 P .horzFrontPorchPx) (spells_bits9to8 P .horzSyncPulsePx)
      (spells_bits5to4 P .vertFrontPorchLines) (spells_bits5to4 P .vertSyncPulseLines)
  · exact spells_low8 P .horzImageMm
  · exact spells_low8 P .vertImageMm
  · exact spells_nibpack (spells_high4 P .horzImageMm) (spells_high4 P .vertImageMm)
  · exact spells_low8 P .horzBorderPx
  · exact spells_low8 P .vertBorderLines
  · exact spells_lane17Byte c P

/-- Settles O15: bit by bit, what it means that row k of the table spells lane k. -/
theorem descriptorFollowsTheBitMap : Obligations.DescriptorFollowsTheBitMap :=
  fun c P k i => (spells_descriptor c P k).2 i.val i.isLt

end Sys2Proof.Machine
end

section
/-!
SUPPORT. UNPACK of spec/30_encoding.md R66 against ENCODE: the groups of a packed byte, a value that is cut in two and joined
again, and a value that is joined and cut again; the round trip of R67 is assembled from them.
-/

namespace Sys2Proof.Machine

section Groups

variable (h l : Nibble) (a b c d : Pair) (e : Byte)

theorem nibpack_high : (nibpack h l).extractLsb' 4 4 = h := by
  rw [nibpack_eq_append]
  exact BitVec.extractLsb'_append_eq_left

theorem nibpack_low : (nibpack h l).extractLsb' 0 4 = l := by
  rw [nibpack_eq_append]
  exact BitVec.extractLsb'_append_eq_right

theorem pairpack_first : (pairpack a b c d).extractLsb' 6 2 = a := by revert a b c d; decide

theorem pairpack_second : (pairpack a b c d).extractLsb' 4 2 = b := by revert a b c d; decide

theorem pairpack_third : (pairpack a b c d).extractLsb' 2 2 = c := by revert a b c d; decide

theorem pairpack_fourth : (pairpack a b c d).extractLsb' 0 2 = d := by revert a b c d; decide

/-- NIBPACK of a byte's two groups is the byte. -/
theorem nibpack_extract : nibpack (e.extractLsb' 4 4) (e.extractLsb' 0 4) = e := by revert e; decide

/-- PAIRPACK of a byte's four groups is the byte. -/
theorem pairpack_extract :
    pairpack (e.extractLsb' 6 2) (e.extractLsb' 4 2) (e.extractLsb' 2 2) (e.extractLsb' 0 2) = e := by revert e; decide

end Groups

section CutThenJoined

/-- A value cut at bit n and joined again keeps its low m + n bits. -/
theorem ofNat_div_append_ofNat (m n v : Nat) :
    BitVec.ofNat m (v / 2 ^ n) ++ BitVec.ofNat n v = BitVec.ofNat (m + n) v := by
  apply BitVec.eq_of_getLsbD_eq
  intro i hi
  simp only [BitVec.getLsbD_append, BitVec.getLsbD_ofNat, Nat.testBit_div_two_pow]
  grind

variable (v : Nat)

theorem high4_append_low8_toNat : (high4 v ++ low8 v).toNat = v % 2 ^ 12 := by
  rw [high4_eq, low8_eq, ← BitVec.toNat_ofNat]
  exact congrArg BitVec.toNat (ofNat_div_append_ofNat 4 8 v)

theorem bits9to8_append_low8_toNat : (bits9to8 v ++ low8 v).toNat = v % 2 ^ 10 := by
  rw [bits9to8_eq, low8_eq, ← BitVec.toNat_ofNat]
  exact congrArg BitVec.toNat (ofNat_div_append_ofNat 2 8 v)

theorem bits5to4_append_low4_toNat : (bits5to4 v ++ low4 v).toNat = v % 2 ^ 6 := by
  rw [bits5to4_eq, low4_eq, ← BitVec.toNat_ofNat]
  exact congrArg BitVec.toNat (ofNat_div_append_ofNat 2 4 v)

theorem low8_toNat : (low8 v).toNat = v % 2 ^ 8 := by
  rw [low8_eq, BitVec.toNat_ofNat]

end CutThenJoined

section JoinedThenCut

variable {m n : Nat}

/-- The low bits of two words joined are the lower word. -/
theorem ofNat_append_toNat (x : BitVec m) (y : BitVec n) : BitVec.ofNat n (x ++ y).toNat = y := by
  rw [BitVec.ofNat_toNat, BitVec.setWidth_append_eq_right]

/-- The bits above them are the upper word. -/
theorem ofNat_append_toNat_div (x : BitVec m) (y : BitVec n) : BitVec.ofNat m ((x ++ y).toNat / 2 ^ n) = x := by
  rw [← Nat.shiftRight_eq_div_pow]
  exact BitVec.extractLsb'_append_eq_left

theorem low8_append (x : BitVec m) (y : Byte) : low8 (x ++ y).toNat = y := by
  rw [low8_eq, ofNat_append_toNat]

theorem low4_append (x : BitVec m) (y : Nibble) : low4 (x ++ y).toNat = y := by
  rw [low4_eq, ofNat_append_toNat]

theorem high4_append (x : Nibble) (y : Byte) : high4 (x ++ y).toNat = x := by
  rw [high4_eq]
  exact ofNat_append_toNat_div x y

theorem bits9to8_append (x : Pair) (y : Byte) : bits9to8 (x ++ y).toNat = x := by
  rw [bits9to8_eq]
  exact ofNat_append_toNat_div x y

theorem bits5to4_append (x : Pair) (y : Nibble) : bits5to4 (x ++ y).toNat = x := by
  rw [bits5to4_eq]
  exact ofNat_append_toNat_div x y

theorem low8_of_byte (y : Byte) : low8 y.toNat = y := by
  rw [low8_eq, BitVec.ofNat_toNat, BitVec.setWidth_eq]

/-- Rounding (R100) leaves the count of 10000·q at q. -/
theorem pcqCount_mul (q : Count) : pcqCount (10000 * q.toNat) = q := by
  have hq : quotient (10000 * q.toNat) = q.toNat := by unfold quotient; omega
  rw [pcqCount_eq, hq, BitVec.ofNat_toNat, BitVec.setWidth_eq]

/-- A byte whose nibbles each head a 12-bit value is packed again from the heads of those values. -/
theorem nibpack_high4_of_joined (e x y : Byte) :
    nibpack (high4 (e.extractLsb' 4 4 ++ x).toNat) (high4 (e.extractLsb' 0 4 ++ y).toNat) = e := by
  rw [high4_append, high4_append, nibpack_extract]

end JoinedThenCut

section UnpackOfEncode

variable (c : Config) (P : TimingParameters)

/-- UNPACK reads the count that ENCODE wrote (R66, R100). -/
theorem unpackCount_descriptor : unpackCount (descriptor c P) = pcqCount P.pixelClockHz := by
  rw [unpackCount, descriptor_0, descriptor_1, lane0Byte_eq_extractLsb', lane1Byte_eq_extractLsb', count_high_append_low]

/-- UNPACK of ENCODE keeps the low W bits of every field but the pixel clock and the flags (R67): each lane of groups is taken
apart, and the field's two groups are joined. -/
theorem portValue_unpack_descriptor (f : Field) (hclock : f ≠ .pixelClockHz) (hflags : f ≠ .syncFlags) :
    portValue (unpack (descriptor c P)) f = portValue P f % 2 ^ fieldWidth f := by
  cases f
  case pixelClockHz => exact absurd rfl hclock
  case syncFlags => exact absurd rfl hflags
  all_goals simp only [portValue, unpack, fieldWidth, descriptor_2, descriptor_3, descriptor_4, descriptor_5, descriptor_6,
    descriptor_7, descriptor_8, descriptor_9, descriptor_10, descriptor_11, descriptor_12, descriptor_13, descriptor_14,
    descriptor_15, descriptor_16, lane4Byte, lane7Byte, lane10Byte, lane11Byte, lane14Byte, nibpack_high, nibpack_low,
    pairpack_first, pairpack_second, pairpack_third, pairpack_fourth]
  case horzAddrPx | horzBlankPx | vertAddrLines | vertBlankLines | horzImageMm | vertImageMm =>
    exact high4_append_low8_toNat _
  case horzFrontPorchPx | horzSyncPulsePx => exact bits9to8_append_low8_toNat _
  case vertFrontPorchLines | vertSyncPulseLines => exact bits5to4_append_low4_toNat _
  case horzBorderPx | vertBorderLines => exact low8_toNat _

/-- UNPACK reads the flags byte (R177). -/
theorem syncFlags_unpack_descriptor :
    (unpack (descriptor c P)).syncFlags = if c.generalizeFlags then P.syncFlags % 256 else 0x1A := by
  rw [unpack, descriptor_17, lane17Byte]
  split
  · exact low8_toNat P.syncFlags
  · rfl

end UnpackOfEncode

section EncodeOfUnpack

variable (c : Config) (d : Descriptor)

/-- Lane 17 of the unpacked record is the descriptor's where the configuration can form that byte (R177). -/
theorem lane17Byte_unpack (h : c.generalizeFlags = true ∨ d[17] = 0x1A) : lane17Byte c (unpack d) = d[17] := by
  unfold lane17Byte
  split
  case isTrue => exact low8_of_byte d[17]
  case isFalse hmode => exact (h.resolve_left hmode).symm

/-- ENCODE of the unpacked record is the descriptor, lane by lane: in every lane the groups that UNPACK joined are cut apart
again (R67). -/
theorem descriptor_unpack (h : c.generalizeFlags = true ∨ d[17] = 0x1A) : descriptor c (unpack d) = d := by
  have hcount : pcqCount (unpack d).pixelClockHz = d[1] ++ d[0] := pcqCount_mul (unpackCount d)
  apply Vector.ext
  intro k hk
  interval_cases k
  · rw [descriptor_0, lane0Byte, hcount, low8_append]
  · rw [descriptor_1, lane1Byte_eq_extractLsb', hcount]; exact BitVec.extractLsb'_append_eq_left
  · exact low8_append (d[4].extractLsb' 4 4) d[2]
  · exact low8_append (d[4].extractLsb' 0 4) d[3]
  · exact nibpack_high4_of_joined d[4] d[2] d[3]
  · exact low8_append (d[7].extractLsb' 4 4) d[5]
  · exact low8_append (d[7].extractLsb' 0 4) d[6]
  · exact nibpack_high4_of_joined d[7] d[5] d[6]
  · exact low8_append (d[11].extractLsb' 6 2) d[8]
  · exact low8_append (d[11].extractLsb' 4 2) d[9]
  · simp only [descriptor_10, lane10Byte, unpack, low4_append, nibpack_extract]
  · simp only [descriptor_11, lane11Byte, unpack, bits9to8_append, bits5to4_append, pairpack_extract]
  · exact low8_append (d[14].extractLsb' 4 4) d[12]
  · exact low8_append (d[14].extractLsb' 0 4) d[13]
  · exact nibpack_high4_of_joined d[14] d[12] d[13]
  · exact low8_of_byte d[15]
  · exact low8_of_byte d[16]
  · exact lane17Byte_unpack c d h

end EncodeOfUnpack

/-- Settles O17: each direction field by field and lane by lane. -/
theorem packUnpackRoundTrip : Obligations.PackUnpackRoundTrip :=
  ⟨fun c P => ⟨unpackCount_descriptor c P, portValue_unpack_descriptor c P, syncFlags_unpack_descriptor c P⟩,
    descriptor_unpack⟩

end Sys2Proof.Machine
end

section
/-!
SUPPORT. The rounding of the pixel clock: where Q takes a value and how it moves with the clock, and what that makes of the 16-bit
count (spec/40_pixel_clock_quantizer.md R100 to R105).
-/

namespace Sys2Proof.Machine

section Rounding

variable (hz n k r : Nat)

/-- Q stays below n up to the half step under 10000·n (R102). -/
theorem quotient_lt_iff : quotient hz < n ↔ hz + 5000 < 10000 * n := by
  rw [quotient, Nat.div_lt_iff_lt_mul (by decide), Nat.mul_comm]

/-- Q is n exactly from the half step under 10000·n, which is in, to the half step over it, which is not (R102). -/
theorem quotient_eq_iff : quotient hz = n ↔ 10000 * n ≤ hz + 5000 ∧ hz + 5000 < 10000 * (n + 1) := by
  have hbelow := quotient_lt_iff hz n
  have habove := quotient_lt_iff hz (n + 1)
  omega

/-- A whole number of steps of 10 kHz passes through the rounding. -/
theorem quotient_mul_add : quotient (10000 * k + hz) = k + quotient hz := by
  rw [quotient, Nat.add_assoc, Nat.mul_add_div (by decide), quotient]

/-- The rest of a step is rounded down below its half. -/
theorem quotient_mul_add_of_lt (hr : r < 5000) : quotient (10000 * n + r) = n := by
  rw [quotient_mul_add, (quotient_eq_iff r 0).mpr (by omega), Nat.add_zero]

/-- The rest of a step is rounded up from its half on: a tie goes up. -/
theorem quotient_mul_add_of_le (hr : 5000 ≤ r) (hstep : r < 10000) : quotient (10000 * n + r) = n + 1 := by
  rw [quotient_mul_add, (quotient_eq_iff r 1).mpr (by omega)]

theorem pcqCount_of_quotient_eq (h : quotient hz = n) : pcqCount hz = BitVec.ofNat 16 n := by
  rw [pcqCount_eq, h]

/-- The count does not see whole periods of 655360000 Hz: each adds 65536 to Q, which the mask drops (R104). -/
theorem pcqCount_period_mul_add : pcqCount (655360000 * k + hz) = pcqCount hz := by
  have hquotient : quotient (655360000 * k + hz) = 65536 * k + quotient hz := by
    rw [show 655360000 * k = 10000 * (65536 * k) by omega, quotient_mul_add]
  apply BitVec.eq_of_toNat_eq
  rw [pcqCount_toNat, pcqCount_toNat, hquotient, Nat.mul_add_mod]

/-- The two bytes of a clock are the low and the high byte of its count (R101). -/
theorem pixelClockBytes_eq :
    pixelClockBytes hz = ((pcqCount hz).extractLsb' 0 8, (pcqCount hz).extractLsb' 8 8) := by
  rw [pixelClockBytes, low8_count, high8_count]

end Rounding

/-- PCQ drives the quantizer's result and the two lanes of its bytes, and nothing else (R100, R101). -/
theorem exec_pcq (s : State) : exec .pcq s =
    .next (((s.setQ (pcqCount s.ports.pixelClockHz)).setLane 0 ((pcqCount s.ports.pixelClockHz).extractLsb' 0 8)).setLane 1
      ((pcqCount s.ports.pixelClockHz).extractLsb' 8 8)) := by
  rw [exec, execPcq, pixelClockBytes_eq]

/-- Settles O19: the count of the clock at the port, its two bytes, and the updates PCQ makes with them. -/
theorem pcqRoundsDividesAndKeepsSixteenBits : Obligations.PcqRoundsDividesAndKeepsSixteenBits :=
  ⟨fun s => ⟨pcqCount s.ports.pixelClockHz, rfl, pixelClockBytes_eq _, exec_pcq s⟩, by decide⟩

/-- Settles O20, on the two sides of the tie. -/
theorem roundingIsToNearestTiesUp : Obligations.RoundingIsToNearestTiesUp := by
  intro n r hr
  refine ⟨quotient_mul_add_of_lt n r, fun htie => quotient_mul_add_of_le n r htie hr, ?count⟩
  case count =>
    apply pcqCount_of_quotient_eq
    split
    case isTrue hdown => exact quotient_mul_add_of_lt n r hdown
    case isFalse hup => exact quotient_mul_add_of_le n r (Nat.le_of_not_lt hup) hr

/-- Settles O22: 655360000 Hz are 65536 steps of the rounding, and the count of a clock is that of its rest by the period. -/
theorem countWrapsWithPeriod655360000 : Obligations.CountWrapsWithPeriod655360000 := by
  refine ⟨fun hz => ⟨pcqCount_eq hz, ?step, ?period⟩, by decide, by decide, by decide⟩
  case step =>
    rw [Nat.add_comm hz, Nat.add_comm (quotient hz)]
    exact quotient_mul_add hz 65536
  case period =>
    calc pcqCount hz
        = pcqCount (655360000 * (hz / 655360000) + hz % 655360000) := by rw [Nat.div_add_mod]
      _ = pcqCount (hz % 655360000) := pcqCount_period_mul_add _ _

/-- Settles O23: each range of clocks is the range in which Q is 0, below 65536, or 65536. -/
theorem extremesOfTheCount : Obligations.ExtremesOfTheCount := by
  refine ⟨fun hz hle => ?zero, fun hz => ?fits, by decide, fun hz => ?first, fun hz => pcqCount_of_quotient_eq hz 65536,
    by decide, by decide, by decide⟩
  case zero => exact pcqCount_of_quotient_eq hz 0 ((quotient_eq_iff hz 0).mpr (by omega))
  case fits =>
    rw [quotient_lt_iff]
    omega
  case first =>
    rw [quotient_eq_iff]
    omega

end Sys2Proof.Machine
end

section
/-!
SUPPORT. The slicer of spec/41_field_slicer.md: MASK and SLICE bit by bit, and what a descriptor keeps of each field, namely its
value modulo the field's width, and of the pixel clock the count (R120 to R124).
-/

namespace Sys2Proof.Machine

section Operands

variable (w v hi lo : Nat)

/-- A slice below the width reads no bit that the mask drops (R122). -/
theorem slice_mask (hlo : lo ≤ hi) (hhi : hi < w) : slice (mask w v) hi lo = slice v hi lo := by
  apply Nat.eq_of_testBit_eq
  intro i
  rw [slice_testBit, slice_testBit, mask_testBit]
  by_cases hbit : i < hi - lo + 1
  case pos => rw [decide_eq_true (show lo + i < w by omega), Bool.true_and]
  case neg => rw [decide_eq_false hbit, Bool.false_and, Bool.false_and]

/-- Bit i of a slice is bit lo + i of the value, up to bit hi (R121). -/
theorem slice_testBit_of_le (i : Nat) (hlo : lo ≤ hi) :
    (slice v hi lo).testBit i = (decide (lo + i ≤ hi) && v.testBit (lo + i)) := by
  rw [slice_testBit, decide_eq_decide.mpr (show i < hi - lo + 1 ↔ lo + i ≤ hi by omega)]

/-- A slice above the value's top set bit is 0 (R121). -/
theorem slice_eq_zero_of_lt (hv : v < 2 ^ lo) : slice v hi lo = 0 := by
  rw [slice, Nat.div_eq_of_lt hv, Nat.zero_mod]

end Operands

/-- MASK drives its result and nothing else (R120). -/
theorem exec_mask (w : MaskWidth) (v : Nat) (s : State) :
    exec (.mask w v) s = .next (s.setMask ⟨widthOf w, mask (widthOf w) v⟩) := rfl

section Congruence

variable (c : Config) {P P' : TimingParameters}

/-- Where the flags are not generalized, ENCODE forms the constant flags byte (R177). -/
theorem generalizeFlags_or_descriptor_17 (P : TimingParameters) :
    c.generalizeFlags = true ∨ (descriptor c P)[17] = 0x1A := by
  rw [descriptor_17, lane17Byte]
  cases c.generalizeFlags
  · exact .inr rfl
  · exact .inl rfl

/-- UNPACK of ENCODE reads no more of a record than the count of its clock and the low W bits of its other fields (R67). -/
theorem unpack_descriptor_congr (hcount : pcqCount P.pixelClockHz = pcqCount P'.pixelClockHz)
    (hmod : ∀ f, f ≠ .pixelClockHz → portValue P f % 2 ^ fieldWidth f = portValue P' f % 2 ^ fieldWidth f) :
    unpack (descriptor c P) = unpack (descriptor c P') := by
  apply record_ext
  intro f
  by_cases hclock : f = .pixelClockHz
  case pos =>
    subst hclock
    have hunpacked := (unpackCount_descriptor c P).trans (hcount.trans (unpackCount_descriptor c P').symm)
    exact congrArg (fun q : Count => 10000 * q.toNat) hunpacked
  case neg =>
    by_cases hflags : f = .syncFlags
    case pos =>
      subst hflags
      have hlow : P.syncFlags % 256 = P'.syncFlags % 256 := hmod .syncFlags hclock
      simp only [portValue, syncFlags_unpack_descriptor, hlow]
    case neg =>
      rw [portValue_unpack_descriptor c P f hclock hflags, portValue_unpack_descriptor c P' f hclock hflags, hmod f hclock]

/-- The descriptor depends on the pixel clock only through its count, and on every other field only modulo its width (R123): it is
rebuilt from what UNPACK reads, and UNPACK reads no more than that. -/
theorem descriptor_congr (hcount : pcqCount P.pixelClockHz = pcqCount P'.pixelClockHz)
    (hmod : ∀ f, f ≠ .pixelClockHz → portValue P f % 2 ^ fieldWidth f = portValue P' f % 2 ^ fieldWidth f) :
    descriptor c P = descriptor c P' :=
  calc descriptor c P
      = descriptor c (unpack (descriptor c P)) := (descriptor_unpack c _ (generalizeFlags_or_descriptor_17 c P)).symm
    _ = descriptor c (unpack (descriptor c P')) := by rw [unpack_descriptor_congr c hcount hmod]
    _ = descriptor c P' := descriptor_unpack c _ (generalizeFlags_or_descriptor_17 c P')

/-- Two values of a field that agree modulo its width give the same descriptor (R123). -/
theorem descriptor_setPort_congr (P : TimingParameters) (f : Field) {v v' : Nat} (hf : f ≠ .pixelClockHz)
    (hv : v % 2 ^ fieldWidth f = v' % 2 ^ fieldWidth f) : descriptor c (setPort P f v) = descriptor c (setPort P f v') := by
  have hother : ∀ g, g ≠ f → portValue (setPort P f v) g = portValue (setPort P f v') g := fun g hg => by
    rw [portValue_setPort_other P f g v hg, portValue_setPort_other P f g v' hg]
  refine descriptor_congr c (congrArg pcqCount (hother .pixelClockHz hf.symm)) fun g _ => ?_
  by_cases hg : g = f
  case pos =>
    subst hg
    rw [portValue_setPort_same, portValue_setPort_same, hv]
  case neg => rw [hother g hg]

/-- Two pixel clocks of the same count give the same descriptor (R126). -/
theorem descriptor_pixelClockHz_congr (P : TimingParameters) {hz hz' : Nat} (hcount : pcqCount hz = pcqCount hz') :
    descriptor c { P with pixelClockHz := hz } = descriptor c { P with pixelClockHz := hz' } :=
  descriptor_congr c hcount fun f hf => congrArg (· % 2 ^ fieldWidth f)
    ((portValue_setPort_other P .pixelClockHz f hz hf).trans (portValue_setPort_other P .pixelClockHz f hz' hf).symm)

end Congruence

/-- The count does not see whole multiples of 2^16 in Q (R124). -/
theorem pcqCount_eq_of_quotient_eq_mul_add {k hz hz' : Nat} (h : quotient hz = 2 ^ 16 * k + quotient hz') :
    pcqCount hz = pcqCount hz' := by
  apply BitVec.eq_of_toNat_eq
  rw [pcqCount_toNat, pcqCount_toNat, h]
  exact Nat.mul_add_mod (2 ^ 16) k (quotient hz')

/-- Settles O27: bit lo + i of a slice's range lies below the width, where the mask keeps it. -/
theorem maskBeforeSliceChangesNothing : Obligations.MaskBeforeSliceChangesNothing :=
  fun v w hi lo => slice_mask w v hi lo

/-- Settles O29: 2^W·k + x is x modulo 2^W, and a Q that is larger by 2^16·k has the same count. -/
theorem maskingBoundaryOfEveryField : Obligations.MaskingBoundaryOfEveryField :=
  ⟨fun c P f k x hf => descriptor_setPort_congr c P f hf (Nat.mul_add_mod (2 ^ fieldWidth f) k x),
    fun c P _ _ _ h => descriptor_pixelClockHz_congr c P (pcqCount_eq_of_quotient_eq_mul_add h)⟩

/-- Settles O24: the corners are the remainders of 2^W, of the largest value below it, and of 0. -/
theorem maskKeepsTheLowBits : Obligations.MaskKeepsTheLowBits := by
  intro w v s
  refine ⟨mask (widthOf w) v, rfl, exec_mask w v s, mask_testBit (widthOf w) v, ?boundary, ?allOnes, ?zero⟩
  case boundary =>
    rintro rfl
    exact Nat.mod_self _
  case allOnes =>
    rintro rfl
    exact Nat.mod_eq_of_lt (Nat.sub_one_lt (Nat.two_pow_pos _).ne')
  case zero =>
    rintro rfl
    exact Nat.zero_mod _

/-- Settles O25: where hi ≥ lo the operation runs and drives the slice. -/
theorem sliceExtractsTheBits : Obligations.SliceExtractsTheBits :=
  fun v hi lo s hlo => ⟨slice v hi lo, rfl, execSlice_eq v hi lo s hlo, fun i => slice_testBit_of_le v hi lo i hlo,
    slice_eq_zero_of_lt v hi lo⟩

end Sys2Proof.Machine
end

section
/-!
SUPPORT. The nibble splitter of spec/42_nibble_splitter.md: the number of a packed byte (R140, R142), and what a source of the
descriptor bit map reads of a record (R144).
-/

namespace Sys2Proof.Machine

section Numbers

/-- Two words appended stand for the upper one's number above the lower one's: nothing carries from one into the other. -/
theorem append_toNat_eq_add {m n : Nat} (x : BitVec m) (y : BitVec n) : (x ++ y).toNat = x.toNat * 2 ^ n + y.toNat := by
  rw [BitVec.toNat_append, ← Nat.shiftLeft_add_eq_or_of_lt y.isLt, Nat.shiftLeft_eq]

theorem nibpack_toNat (h l : Nibble) : (nibpack h l).toNat = h.toNat * 2 ^ 4 + l.toNat := by
  rw [nibpack_eq_append, append_toNat_eq_add]

theorem pairpack_toNat (a b c d : Pair) :
    (pairpack a b c d).toNat = a.toNat * 2 ^ 6 + b.toNat * 2 ^ 4 + c.toNat * 2 ^ 2 + d.toNat := by
  rw [pairpack_eq_append, append_toNat_eq_add, append_toNat_eq_add, append_toNat_eq_add]
  ring

end Numbers

/-- NIBPACK drives its result and nothing else (R140). -/
theorem exec_nibpack (h l : Nibble) (s : State) : exec (.nibpack h l) s = .next (s.setNib (nibpack h l)) := rfl

/-- PAIRPACK drives its result and nothing else (R142). -/
theorem exec_pairpack (a b c d : Pair) (s : State) : exec (.pairpack a b c d) s = .next (s.setPair (pairpack a b c d)) := rfl

/-- A source reads no port but that of its own field. -/
theorem BitSource.value_congr (b : BitSource) {P P' : TimingParameters}
    (h : ∀ f, b.field = some f → portValue P f = portValue P' f) : b.value P = b.value P' := by
  cases b with
  | count j =>
    have hclock : P.pixelClockHz = P'.pixelClockHz := h .pixelClockHz rfl
    rw [BitSource.value, BitSource.value, hclock]
  | port f j => rw [BitSource.value, BitSource.value, h f rfl]
  | const v => rfl

/-- Another value of a field leaves every source of another field, and every constant, alone. -/
theorem BitSource.value_setPort_other (b : BitSource) (P : TimingParameters) (f : Field) (v : Nat) (h : b.field ≠ some f) :
    b.value (setPort P f v) = b.value P := by
  refine b.value_congr fun g hg => portValue_setPort_other P f g v ?_
  rintro rfl
  exact h hg

/-- The low group of `vert_front_porch_lines` is the high nibble of lane 10 (R170). -/
theorem descriptor_10_high (c : Config) (P : TimingParameters) :
    (descriptor c P)[10].extractLsb' 4 4 = low4 P.vertFrontPorchLines := nibpack_high _ _

/-- Its high group is the third pair of lane 11 (R171). -/
theorem descriptor_11_third (c : Config) (P : TimingParameters) :
    (descriptor c P)[11].extractLsb' 2 2 = bits5to4 P.vertFrontPorchLines := pairpack_third _ _ _ _

/-- Settles O32: an output bit is the value of its source in the bit map, which reads the port of its own field alone; 0x3F is
all ones in each of its field's two groups. -/
theorem noFieldDisturbsAnother : Obligations.NoFieldDisturbsAnother := by
  refine ⟨fun c P f v k i hsource => ?noCarry, fun c P => ⟨?lane10, ?lane11⟩⟩
  case noCarry =>
    rw [descriptorFollowsTheBitMap, descriptorFollowsTheBitMap, BitSource.value_setPort_other _ P f v hsource]
  case lane10 => exact (descriptor_10_high c _).trans (show low4 0x3F = 0xF by decide)
  case lane11 => exact (descriptor_11_third c _).trans (show bits5to4 0x3F = 0b11 by decide)

/-- Settles O30: the byte is the two nibbles appended. -/
theorem nibpackJoinsTwoNibbles : Obligations.NibpackJoinsTwoNibbles :=
  fun h l s => ⟨nibpack h l, nibpack_high h l, nibpack_low h l, nibpack_toNat h l, exec_nibpack h l s⟩

/-- Settles O31: the byte is the four pairs appended. -/
theorem pairpackJoinsFourPairs : Obligations.PairpackJoinsFourPairs :=
  fun a b c d s => ⟨pairpack a b c d, pairpack_first a b c d, pairpack_second a b c d, pairpack_third a b c d,
    pairpack_fourth a b c d, pairpack_toNat a b c d, exec_pairpack a b c d s⟩

end Sys2Proof.Machine
end

section
/-!
SUPPORT. The byte-layout router of spec/43_byte_layout_router.md: the slices of a field as remainders and as shifted words, what a
lane operation does once its byte is known, and the bytes of ENCODE as the rules write them (R160 to R180).
-/

namespace Sys2Proof.Machine

section Slices

variable (v x y z : Nat)

theorem low8_eq_ofNat_mod : low8 v = BitVec.ofNat 8 (v % 256) := by
  rw [low8, slice, Nat.pow_zero, Nat.div_one]
  rfl

theorem low4_eq_ofNat_mod : low4 v = BitVec.ofNat 4 (v % 16) := by
  rw [low4, slice, Nat.pow_zero, Nat.div_one]
  rfl

theorem high8_toNat : (high8 v).toNat = v / 2 ^ 8 % 2 ^ 8 := by
  rw [high8, BitVec.toNat_ofNat]
  exact Nat.mod_mod _ _

theorem high4_eq_ofNat_mod : high4 v = BitVec.ofNat 4 (v / 256 % 16) := rfl

theorem bits9to8_eq_ofNat_mod : bits9to8 v = BitVec.ofNat 2 (v / 256 % 4) := rfl

theorem bits5to4_eq_ofNat_mod : bits5to4 v = BitVec.ofNat 2 (v / 16 % 4) := rfl

theorem high4_eq_ofNat_shiftRight : high4 v = BitVec.ofNat 4 (v >>> 8) := by
  rw [high4_eq, Nat.shiftRight_eq_div_pow]

theorem bits9to8_eq_ofNat_shiftRight : bits9to8 v = BitVec.ofNat 2 (v >>> 8) := by
  rw [bits9to8_eq, Nat.shiftRight_eq_div_pow]

theorem bits5to4_eq_ofNat_shiftRight : bits5to4 v = BitVec.ofNat 2 (v >>> 4) := by
  rw [bits5to4_eq, Nat.shiftRight_eq_div_pow]

/-- A lane of two slices 11:8 holds them side by side (R164, R167, R174). -/
theorem nibpack_high4_eq_append :
    nibpack (high4 v) (high4 x) = BitVec.ofNat 4 (v / 256 % 16) ++ BitVec.ofNat 4 (x / 256 % 16) := by
  rw [nibpack_eq_append, high4_eq_ofNat_mod, high4_eq_ofNat_mod]

/-- A lane of two slices 3:0 holds them side by side (R170). -/
theorem nibpack_low4_eq_append :
    nibpack (low4 v) (low4 x) = BitVec.ofNat 4 (v % 16) ++ BitVec.ofNat 4 (x % 16) := by
  rw [nibpack_eq_append, low4_eq_ofNat_mod, low4_eq_ofNat_mod]

/-- A lane of two slices 9:8 and two slices 5:4 holds them side by side (R171). -/
theorem pairpack_bits_eq_append :
    pairpack (bits9to8 v) (bits9to8 x) (bits5to4 y) (bits5to4 z) =
      BitVec.ofNat 2 (v / 256 % 4) ++ BitVec.ofNat 2 (x / 256 % 4) ++ BitVec.ofNat 2 (y / 16 % 4) ++
        BitVec.ofNat 2 (z / 16 % 4) := by
  rw [pairpack_eq_append, bits9to8_eq_ofNat_mod, bits9to8_eq_ofNat_mod, bits5to4_eq_ofNat_mod, bits5to4_eq_ofNat_mod]

end Slices

section Lanes

variable (c : Config) (P : TimingParameters)

/-- Lane 0 is the low byte of Q: the mask to 16 bits drops none of it (R160). -/
theorem lane0Byte_toNat : (lane0Byte P).toNat = quotient P.pixelClockHz % 256 := by
  rw [lane0Byte, low8_toNat, pcqCount_toNat]
  omega

/-- Lane 1 is the byte above it (R161). -/
theorem lane1Byte_toNat : (lane1Byte P).toNat = quotient P.pixelClockHz / 256 % 256 := by
  rw [lane1Byte, high8_toNat, pcqCount_toNat]
  omega

/-- Below 5000 Hz the quotient is 0 (R160). -/
theorem lane0Byte_eq_zero (h : P.pixelClockHz < 5000) : lane0Byte P = 0 := by
  have hquotient := (quotient_lt_iff P.pixelClockHz 1).mpr (by omega)
  apply BitVec.eq_of_toNat_eq
  rw [lane0Byte_toNat, Nat.lt_one_iff.mp hquotient]
  rfl

/-- Below 2555000 Hz the quotient is below 256 (R161). -/
theorem lane1Byte_eq_zero (h : P.pixelClockHz < 2555000) : lane1Byte P = 0 := by
  have hquotient := (quotient_lt_iff P.pixelClockHz 256).mpr (by omega)
  apply BitVec.eq_of_toNat_eq
  rw [lane1Byte_toNat, Nat.div_eq_of_lt hquotient]
  rfl

theorem lane17Byte_of_constant (h : c.generalizeFlags = false) : lane17Byte c P = 0x1A := by
  rw [lane17Byte, h]
  rfl

theorem lane17Byte_of_generalized (h : c.generalizeFlags = true) : lane17Byte c P = low8 P.syncFlags := by
  rw [lane17Byte, h]
  rfl

/-- The lanes of ENCODE in lane order (R180). -/
theorem descriptor_eq_lanes : descriptor c P =
    #v[lane0Byte P, lane1Byte P, lane2Byte P, lane3Byte P, lane4Byte P, lane5Byte P, lane6Byte P, lane7Byte P, lane8Byte P,
      lane9Byte P, lane10Byte P, lane11Byte P, lane12Byte P, lane13Byte P, lane14Byte P, lane15Byte P, lane16Byte P,
      lane17Byte c P] := rfl

end Lanes

/-- ENCODE runs in every state and drives the 18 lanes and the report, and nothing else (R180). -/
theorem exec_encode (s : State) : exec .encode s =
    .next ((s.setLanes (descriptor s.cfg s.ports)).setOor (oorOf s.cfg s.ports)) := execEncode_eq s

/-- A lane operation whose lane's byte in ENCODE is known drives its lane to that byte, and nothing else (R61, R183). -/
theorem exec_lane_of_byte {b : Byte} (i : Instr) (s : State) (l : Fin 18) (hl : laneOf i = some l)
    (hb : (descriptor s.cfg s.ports)[l] = b) : exec i s = .next { s with lanes := s.lanes.set l (some b) } := by
  rw [exec_laneOf i s l hl, hb]
  rfl

/-- Settles O40: each lane's rule, with the slices as shifted words and the packers as concatenations. -/
theorem encodeDrivesEveryLane : Obligations.EncodeDrivesEveryLane := by
  intro s
  refine ⟨pcqCount s.ports.pixelClockHz, descriptor s.cfg s.ports, _, exec_encode s, rfl, ?lanes⟩
  case lanes =>
    rw [descriptor_eq_lanes, lane0Byte_eq_extractLsb', lane1Byte_eq_extractLsb']
    simp only [lane2Byte, lane3Byte, lane5Byte, lane6Byte, lane8Byte, lane9Byte, lane12Byte, lane13Byte, lane15Byte,
      lane16Byte, lane17Byte, low8_eq, flagsConst]
    simp only [lane4Byte, lane7Byte, lane10Byte, lane14Byte, nibpack_eq_append, high4_eq_ofNat_shiftRight, low4_eq]
    simp only [lane11Byte, pairpack_eq_append, bits9to8_eq_ofNat_shiftRight, bits5to4_eq_ofNat_shiftRight]

/-- Settles O33: each of the ten bytes is the low byte of its field. -/
theorem lowByteLanes : Obligations.LowByteLanes :=
  fun s => ⟨exec_lane_of_byte .lane2 s 2 rfl (low8_eq_ofNat_mod _), exec_lane_of_byte .lane3 s 3 rfl (low8_eq_ofNat_mod _),
    exec_lane_of_byte .lane5 s 5 rfl (low8_eq_ofNat_mod _), exec_lane_of_byte .lane6 s 6 rfl (low8_eq_ofNat_mod _),
    exec_lane_of_byte .lane8 s 8 rfl (low8_eq_ofNat_mod _), exec_lane_of_byte .lane9 s 9 rfl (low8_eq_ofNat_mod _),
    exec_lane_of_byte .lane12 s 12 rfl (low8_eq_ofNat_mod _), exec_lane_of_byte .lane13 s 13 rfl (low8_eq_ofNat_mod _),
    exec_lane_of_byte .lane15 s 15 rfl (low8_eq_ofNat_mod _), exec_lane_of_byte .lane16 s 16 rfl (low8_eq_ofNat_mod _)⟩

/-- Settles O34: each of the four bytes is NIBPACK of two slices, which appends them. -/
theorem nibbleLanes : Obligations.NibbleLanes :=
  fun s => ⟨exec_lane_of_byte .lane4 s 4 rfl (nibpack_high4_eq_append _ _),
    exec_lane_of_byte .lane7 s 7 rfl (nibpack_high4_eq_append _ _),
    exec_lane_of_byte .lane10 s 10 rfl (nibpack_low4_eq_append _ _),
    exec_lane_of_byte .lane14 s 14 rfl (nibpack_high4_eq_append _ _)⟩

/-- Settles O35: the byte is PAIRPACK of four slices, which appends them. -/
theorem pairLane : Obligations.PairLane :=
  fun s => exec_lane_of_byte .lane11 s 11 rfl (pairpack_bits_eq_append _ _ _ _)

/-- Settles O36: the two bytes of the count are those of the quotient, which is small below the two corner clocks. -/
theorem clockLanes : Obligations.ClockLanes :=
  fun s => ⟨lane0Byte s.ports, lane1Byte s.ports, exec_lane_of_byte .lane0 s 0 rfl rfl, exec_lane_of_byte .lane1 s 1 rfl rfl,
    lane0Byte_toNat s.ports, lane1Byte_toNat s.ports, lane0Byte_eq_zero s.ports, lane1Byte_eq_zero s.ports⟩

/-- Settles O37: by the mode, the flags byte is the constant or the low byte of `sync_flags`. -/
theorem flagsLane : Obligations.FlagsLane := by
  refine ⟨fun s hmode => ?constant, fun s hmode => ?generalized, fun c P hflags => ?agree⟩
  case constant => exact exec_lane_of_byte .lane17 s 17 rfl (lane17Byte_of_constant s.cfg s.ports hmode)
  case generalized =>
    exact exec_lane_of_byte .lane17Gen s 17 rfl
      ((lane17Byte_of_generalized s.cfg s.ports hmode).trans (low8_eq_ofNat_mod _))
  case agree =>
    cases hmode : c.generalizeFlags
    case false => exact lane17Byte_of_constant c P hmode
    case true =>
      rw [lane17Byte_of_generalized c P hmode, low8_eq_ofNat_mod, hflags]
      rfl

end Sys2Proof.Machine
end

section
/-!
SUPPORT. The out-of-range check of spec/44_out_of_range_check.md: the check of each kind of field, the one port it reads, and the
state VALIDATE answers (R200 to R203).
-/

namespace Sys2Proof.Machine

section Checks

variable (c : Config) (P : TimingParameters)

/-- The rounded quotient no longer fits 16 bits from 655355000 Hz on (R201). -/
theorem two_pow_16_le_quotient_iff (hz : Nat) : 2 ^ 16 ≤ quotient hz ↔ 655355000 ≤ hz := by
  have hfits := quotient_lt_iff hz (2 ^ 16)
  omega

/-- The pixel clock is judged on its unmasked quotient (R201). -/
theorem outOfRange_pixelClockHz : outOfRange c P .pixelClockHz = decide (2 ^ 16 ≤ quotient P.pixelClockHz) := rfl

/-- The flags are judged only where they are placed (R201). -/
theorem outOfRange_syncFlags : outOfRange c P .syncFlags = (c.generalizeFlags && decide (2 ^ 8 ≤ P.syncFlags)) := rfl

/-- Each of the fields 1 to 12 is judged on its own width, in every configuration (R201). -/
theorem outOfRange_eq_decide (f : Field) (hclock : f ≠ .pixelClockHz) (hflags : f ≠ .syncFlags) :
    outOfRange c P f = decide (2 ^ fieldWidth f ≤ portValue P f) := by
  cases f
  case pixelClockHz => exact absurd rfl hclock
  case syncFlags => exact absurd rfl hflags
  all_goals rfl

/-- The check of a field reads no port but its own (R203). -/
theorem outOfRange_congr {P P' : TimingParameters} (f : Field) (h : portValue P f = portValue P' f) :
    outOfRange c P f = outOfRange c P' f := by
  by_cases hclock : f = .pixelClockHz
  case pos =>
    subst hclock
    have hport : P.pixelClockHz = P'.pixelClockHz := h
    rw [outOfRange_pixelClockHz, outOfRange_pixelClockHz, hport]
  case neg =>
    by_cases hflags : f = .syncFlags
    case pos =>
      subst hflags
      have hport : P.syncFlags = P'.syncFlags := h
      rw [outOfRange_syncFlags, outOfRange_syncFlags, hport]
    case neg => rw [outOfRange_eq_decide c P f hclock hflags, outOfRange_eq_decide c P' f hclock hflags, h]

/-- The bit of the pixel clock, as a bound on the hertz value (R201). -/
theorem oorOf_bit_0 : (oorOf c P).getLsbD 0 = decide (655355000 ≤ P.pixelClockHz) :=
  calc (oorOf c P).getLsbD 0
      = outOfRange c P .pixelClockHz := oorOf_getLsbD c P .pixelClockHz
    _ = decide (655355000 ≤ P.pixelClockHz) := decide_eq_decide.mpr (two_pow_16_le_quotient_iff P.pixelClockHz)

end Checks

/-- Where the port exists, VALIDATE drives the report and nothing else (R201). -/
theorem exec_validate (s : State) (h : s.cfg.validate = true) :
    exec .validate s = .next { s with oor := some (oorOf s.cfg s.ports) } := by
  rw [exec, execValidate, State.setOor, if_pos h]

/-- Settles O42: the report is the vector of the fields' checks, and each check is the comparison its rule writes. -/
theorem validateReportsEachField : Obligations.ValidateReportsEachField := by
  intro s hvalidate
  refine ⟨oorOf s.cfg s.ports, exec_validate s hvalidate, oorOf_bit_0 s.cfg s.ports, ?quotient,
    fun f hclock hflags => ?width, ?flags⟩
  case quotient => exact oorOf_getLsbD s.cfg s.ports .pixelClockHz
  case width => rw [oorOf_getLsbD, outOfRange_eq_decide s.cfg s.ports f hclock hflags]
  case flags => exact oorOf_getLsbD s.cfg s.ports .syncFlags

/-- Settles O45: a field's bit is its own check, which another field's port does not enter. -/
theorem eachFieldReportsInItsOwnBit : Obligations.EachFieldReportsInItsOwnBit := by
  refine fun c P f g v => ⟨oorOf_getLsbD c P f, fun hg => ?own⟩
  case own =>
    rw [oorOf_getLsbD, oorOf_getLsbD]
    exact outOfRange_congr c f (portValue_setPort_other P g f v hg.symm)

end Sys2Proof.Machine
end

section
/-!
SUPPORT. The absence of faults (spec/60_exceptions.md R220 to R222), from `exec` outwards: an accepted record, a beat, a step.
-/

namespace Sys2Proof.Machine

/-- A beat that is not discarded and carries no transaction word is refused (R24, I1). -/
theorem runBeat_undecodable (s : State) (b : Beat) (e : DecodeError) (hd : s.discards b = false)
    (h : decode s.cfg b.word = .error e) : s.runBeat b = .refused (.undecodable e) := by
  simp [State.runBeat, hd, h]

/-- An accepted record ends in a fault only where its operation does, and no operation does (R222). -/
theorem transact_ne_fault (s : State) (i : Instr) (P : TimingParameters) (f : Fault) : s.transact i P ≠ .fault f := by
  have hexec := exec_ne_fault i (s.present P)
  unfold State.transact
  split
  case h_1 => exact nofun
  case h_2 g hg => exact absurd hg (hexec g)
  case h_3 => exact nofun

/-- A beat is discarded, refused, or runs its operation: none of these faults. -/
theorem runBeat_ne_fault (s : State) (b : Beat) (f : Fault) : s.runBeat b ≠ .fault f := by
  cases hd : s.discards b
  case true => rw [runBeat_discarded s b hd]; exact nofun
  case false =>
    rcases hdec : decode s.cfg b.word with e | ⟨i, P⟩
    case error => rw [runBeat_undecodable s b e hd hdec]; exact nofun
    case ok => rw [runBeat_decoded s b i P hd hdec]; exact transact_ne_fault s i P f

/-- With no beat a step is a clock edge, and with one it is that beat's: neither faults. -/
theorem step_ne_fault (s : State) (f : Fault) : step s ≠ .fault f := by
  rcases hin : s.inputs with _ | ⟨b, rest⟩
  case nil => rw [step_nil s hin]; exact nofun
  case cons => rw [step_cons s b rest hin]; exact runBeat_ne_fault (s.withInputs rest) b f

/-- Settles O47: the length check is the only fault `exec` could raise, and ENCODE's 18 bytes pass it. -/
theorem noInputRaisesAnyException : Obligations.NoInputRaisesAnyException :=
  ⟨checkLength_error_iff, checkLength_encodeBytes, exec_ne_fault, step_ne_fault⟩

end Sys2Proof.Machine
end

section
/-!
SUPPORT. Runs of the wrapper around its first accepted record (spec/70 R251 to R253): a reset edge and the edges after it
that accept nothing, the first accepted record, and power-up without a reset edge.
-/

namespace Sys2Proof.Machine

section AfterReset

variable (s : State)

/-- Only the beats still to come change while a wrapper that a reset edge has left takes an edge that accepts nothing: a
further reset edge, or one with `in_valid` = 0 (R29, R251). -/
theorem step_resetEdge_discarded (b : Beat) (rest : List Beat) (hw : s.cfg.wrapper = true)
    (hb : b.rst = true ∨ b.inValid = false) :
    step (s.withInputs (b :: rest)).resetEdge = .next (s.withInputs rest).resetEdge := by
  cases hr : b.rst
  case true => exact step_reset _ b rest hw rfl hr
  case false =>
    have hv : b.inValid = false := hb.resolve_left (by simp [hr])
    exact step_bubble _ b rest hw rfl rfl hr hv

theorem run_resetEdge_discarded (bs rest : List Beat) (hw : s.cfg.wrapper = true)
    (hbs : ∀ b ∈ bs, b.rst = true ∨ b.inValid = false) :
    Host.Core.run Sys2Proof.core bs.length (s.withInputs (bs ++ rest)).resetEdge =
      .next (s.withInputs rest).resetEdge := by
  induction bs with
  | nil => rfl
  | cons b bs ih =>
    obtain ⟨hb, htail⟩ := List.forall_mem_cons.mp hbs
    rw [List.length_cons, List.cons_append, run_succ _ _ _ (step_resetEdge_discarded s b (bs ++ rest) hw hb)]
    exact ih htail

/-- A reset edge and any edges after it that accept nothing leave what the reset edge alone would have left (R251). -/
theorem run_reset_discarded (r : Beat) (bs rest : List Beat) (hw : s.cfg.wrapper = true) (hr : r.rst = true)
    (hbs : ∀ b ∈ bs, b.rst = true ∨ b.inValid = false) (hin : s.inputs = r :: bs ++ rest) :
    Host.Core.run Sys2Proof.core (bs.length + 1) s = .next (s.withInputs rest).resetEdge := by
  rw [run_succ _ _ _ (step_reset s r (bs ++ rest) hw hin hr)]
  exact run_resetEdge_discarded s bs rest hw hbs

theorem State.resetEdge_readOutValid (hw : s.cfg.wrapper = true) : s.resetEdge.readOutValid = .ok false :=
  State.readOutValid_of_some s.resetEdge false hw rfl rfl

end AfterReset

/-- Settles O4: the run ends where the reset edge alone would have led, with only the beats taken away. -/
theorem resetEdgeDiscardsAndHoldsUntilAccepted : Obligations.ResetEdgeDiscardsAndHoldsUntilAccepted := by
  intro s r bs rest hw hr hbs hin
  exact ⟨_, run_reset_discarded s r bs rest hw hr hbs hin, rfl, rfl, rfl, rfl⟩

/-- Settles O5: each state up to the record is one that a reset edge left, so `out_valid` reads 0, and the step that accepts
the record starts from the last of them. -/
theorem leavingResetFirstRecordIsVisible : Obligations.LeavingResetFirstRecordIsVisible := by
  intro s r a idle rest P hw hr hidle ha hv hd hin
  have hdiscarded : ∀ b ∈ idle, b.rst = true ∨ b.inValid = false := fun b hb => .inr (hidle b hb).2
  refine ⟨fun k hk => ?waiting, ?visible⟩
  case waiting =>
    have hcut : s.inputs = r :: idle.take k ++ (idle.drop k ++ a :: rest) := by
      simp [hin, ← List.append_assoc]
    have hrun := run_reset_discarded s r (idle.take k) _ hw hr
      (fun b hb => hdiscarded b (List.mem_of_mem_take hb)) hcut
    rw [List.length_take_of_le hk] at hrun
    exact ⟨_, hrun, State.resetEdge_readOutValid _ hw⟩
  case visible =>
    have hrun := run_reset_discarded s r idle (a :: rest) hw hr hdiscarded hin
    have hstep := step_encode (s.withInputs (a :: rest)).resetEdge P a rest rfl (fun _ => ⟨ha, hv⟩) hd
    refine ⟨_, (run_add (idle.length + 1) 1 s _ hrun).trans (run_succ 0 _ _ hstep), ?_, ?_⟩
    · exact State.evaluateEncode_readOutValid _ P hw rfl
    · exact State.evaluateEncode_readDtd _ P (fun _ => rfl)

section BeforeReset

/-- What steps that always go on and keep a property do over a run of any length. -/
theorem run_of_invariant (Inv : State → Prop) (hstep : ∀ s, Inv s → ∃ t, step s = .next t ∧ Inv t) (k : Nat) (s : State)
    (hs : Inv s) : ∃ t, Host.Core.run Sys2Proof.core k s = .next t ∧ Inv t := by
  induction k generalizing s with
  | zero => exact ⟨s, rfl, hs⟩
  | succ k ih =>
    obtain ⟨t, ht, hinv⟩ := hstep s hs
    rw [run_succ k s t ht]
    exact ih t hinv

/-- A beat outside reset whose word, where it is accepted, is a transaction word of the configuration. -/
def Beat.Presentable (c : Config) (b : Beat) : Prop :=
  b.rst = false ∧ (b.inValid = true → ∃ i P, decode c b.word = .ok (i, P))

/-- The wrapper of configuration `c` before its first reset edge: no register has a value, and no reset edge is to come. -/
structure State.PreReset (c : Config) (s : State) : Prop where
  cfg : s.cfg = c
  resetSeen : s.resetSeen = false
  outValidQ : s.outValidQ = none
  dtdQ : s.dtdQ = none
  oorQ : s.oorQ = none
  inputs : ∀ b ∈ s.inputs, b.Presentable c

theorem State.powerUp_preReset (c : Config) (bs : List Beat) (hbs : ∀ b ∈ bs, b.Presentable c) :
    ((State.powerUp c).withInputs bs).PreReset c :=
  ⟨rfl, rfl, rfl, rfl, rfl, hbs⟩

variable {c : Config} {s : State}

theorem State.preResetEdge_preReset (hcfg : s.cfg = c) (hs : s.resetSeen = false)
    (hin : ∀ b ∈ s.inputs, b.Presentable c) : s.preResetEdge.PreReset c :=
  ⟨hcfg, hs, rfl, rfl, rfl, hin⟩

/-- Until a reset edge comes every step goes on and gives no register a value (R253): with no beat, with a bubble, and with a
record, whose operation leaves the registers alone. -/
theorem step_preReset (hw : c.wrapper = true) (h : s.PreReset c) : ∃ t, step s = .next t ∧ t.PreReset c := by
  obtain ⟨hcfg, hseen, -, -, -, hinputs⟩ := h
  have hws : s.cfg.wrapper = true := hcfg ▸ hw
  rcases hin : s.inputs with _ | ⟨b, rest⟩
  case nil =>
    refine ⟨_, step_nil s hin, ?_⟩
    rw [State.clockEdge_preReset s false hws hseen]
    exact State.preResetEdge_preReset hcfg hseen hinputs
  case cons =>
    rw [hin] at hinputs
    obtain ⟨⟨hr, hdec⟩, hrest⟩ := List.forall_mem_cons.mp hinputs
    cases hv : b.inValid
    case false =>
      exact ⟨_, step_bubble_preReset s b rest hws hseen hin hr hv, State.preResetEdge_preReset hcfg hseen hrest⟩
    case true =>
      obtain ⟨i, P, hP⟩ := hdec hv
      obtain ⟨u, hu, hstep⟩ := step_accepted s b rest i P hin (fun _ => ⟨hr, hv⟩) (hcfg ▸ hP)
      obtain ⟨hucfg, -, -, -, -, huseen, huin⟩ := exec_frame i _ u hu
      simp only [State.present_cfg, State.present_resetSeen, State.present_inputs, State.withInputs_cfg,
        State.withInputs_resetSeen, State.withInputs_inputs] at hucfg huseen huin
      refine ⟨_, hstep, ?_⟩
      rw [State.clockEdge_preReset u true (hucfg ▸ hws) (huseen.trans hseen)]
      exact State.preResetEdge_preReset (hucfg.trans hcfg) (huseen.trans hseen) (huin ▸ hrest)

theorem State.readOutValid_beforeReset (hw : s.cfg.wrapper = true) (hs : s.resetSeen = false) :
    s.readOutValid = .error .readBeforeReset := by
  simp [State.readOutValid, hw, hs]

/-- Before the first reset edge no held register can be read either (R253, I4). -/
theorem State.readHeld_beforeReset {α : Type} (register : Option α) (hw : s.cfg.wrapper = true)
    (hs : s.resetSeen = false) : s.readHeld register = .error .readBeforeReset := by
  simp [State.readHeld, State.readOutValid_beforeReset hw hs]

end BeforeReset

/-- Settles O6: power-up meets the invariant `State.PreReset`, every step keeps it, and it refuses every read. -/
theorem powerUpAdmitsNoObservation : Obligations.PowerUpAdmitsNoObservation := by
  intro c bs hw hbs
  refine ⟨⟨rfl, rfl, rfl⟩, fun k => ?_⟩
  obtain ⟨t, hrun, hcfg, hseen, hvalid, hdtd, hoor, -⟩ :=
    run_of_invariant (State.PreReset c) (fun _ => step_preReset hw) k _ (State.powerUp_preReset c bs hbs)
  have hwt : t.cfg.wrapper = true := hcfg ▸ hw
  refine ⟨t, hrun, hvalid, hdtd, hoor, State.readOutValid_beforeReset hwt hseen, ?dtd, fun l => ?lane, fun hc => ?oor⟩
  case dtd => rw [State.readDtd_wrapper t hwt, State.readHeld_beforeReset _ hwt hseen]
  case lane =>
    rw [State.readLane_wrapper t hwt l, State.readHeld_beforeReset _ hwt hseen]
    rfl
  case oor => rw [State.readOor_wrapper t hwt, hcfg, if_pos hc, State.readHeld_beforeReset _ hwt hseen]

end Sys2Proof.Machine
end

section
/-!
SUPPORT. Transaction words: what is written for an operation is read back, and what is read was written so (the words are the
model's, notes/assumptions/2.md).
-/

namespace Sys2Proof

section WrittenThenRead

/-- The bytes of every well-formed operation are read back as that operation, up to the bytes after them. -/
theorem decodeOp_encodeOp (i : Instr) : Laws.OperationWord.Statement i := by
  cases i
  case mask w v => exact Laws.OperationWord.mask w v
  case slice v hi lo => exact Laws.OperationWord.slice v hi lo
  case nibpack h l => exact Laws.OperationWord.nibpack h l
  case pairpack a b c d => exact Laws.OperationWord.pairpack a b c d
  all_goals exact fun _ _ _ => rfl

/-- A word decodes to the operation its first bytes select and the record that the rest, all of it, carries. -/
theorem decode_of_parts {c : Config} {bs rest : List Byte} {i : Instr} {P : TimingParameters}
    (hop : decodeOp c bs = .ok (i, rest)) (hbundle : decodeBundle c rest = .ok (P, [])) : decode c bs = .ok (i, P) := by
  simp [decode, hop, hbundle]

theorem decode_encode {c : Config} {i : Instr} {P : TimingParameters} (hi : i.wf c) (hP : P.fits c) :
    decode c (encode c i P) = .ok (i, P) := by
  refine decode_of_parts (decodeOp_encodeOp i c (encodeBundle c P) hi) ?_
  rw [← List.append_nil (encodeBundle c P)]
  exact decodeBundle_encodeBundle c P [] hP

end WrittenThenRead

section ReadThenWritten

variable {c : Config} {bs rest : List Byte} {i : Instr}

/-- A width byte that is accepted is that of its width (R120). -/
theorem maskWidthOf_eq_some {n : Nat} {w : MaskWidth} (h : maskWidthOf n = some w) : n = Machine.widthOf w := by
  unfold maskWidthOf at h
  split at h <;> cases h <;> rfl

theorem decodeMask_ok (h : decodeMask c bs = .ok (i, rest)) : ∃ w v, i = .mask w v ∧ bs = encodeOperands c i ++ rest := by
  unfold decodeMask at h
  split at h
  · cases h
  · next b bs =>
    split at h
    · cases h
    · next w hw =>
      split at h
      · cases h
      · next v rest' hv =>
        cases h
        refine ⟨w, v, rfl, ?_⟩
        rw [encodeOperands, List.cons_append, ← (takeBits_ok _ _ _ _ hv).1, ← maskWidthOf_eq_some hw, BitVec.ofNat_toNat,
          BitVec.setWidth_eq]

theorem decodeSlice_ok (h : decodeSlice c bs = .ok (i, rest)) :
    ∃ v hi lo, i = .slice v hi lo ∧ bs = encodeOperands c i ++ rest := by
  unfold decodeSlice at h
  split at h
  · next hi lo bs =>
    split at h
    · split at h
      · cases h
      · next v rest' hv =>
        cases h
        refine ⟨v, hi.toNat, lo.toNat, rfl, ?_⟩
        rw [encodeOperands, List.cons_append, List.cons_append, ← (takeBits_ok _ _ _ _ hv).1, BitVec.ofNat_toNat,
          BitVec.setWidth_eq, BitVec.ofNat_toNat, BitVec.setWidth_eq]
    · cases h
  · cases h

theorem decodeNibpack_ok (h : decodeNibpack bs = .ok (i, rest)) :
    ∃ x y, i = .nibpack x y ∧ bs = encodeOperands c i ++ rest := by
  unfold decodeNibpack at h
  split at h
  · cases h
  · next b bs =>
    cases h
    refine ⟨_, _, rfl, ?_⟩
    rw [encodeOperands, ← Machine.nibpack_eq_append, Machine.nibpack_extract, List.singleton_append]

theorem decodePairpack_ok (h : decodePairpack bs = .ok (i, rest)) :
    ∃ x y z u, i = .pairpack x y z u ∧ bs = encodeOperands c i ++ rest := by
  unfold decodePairpack at h
  split at h
  · cases h
  · next b bs =>
    cases h
    refine ⟨_, _, _, _, rfl, ?_⟩
    rw [encodeOperands, ← Machine.pairpack_eq_append, Machine.pairpack_extract, List.singleton_append]

/-- The position that was read is the operation's, and the bytes after it begin with the operation's operands (R61). -/
theorem decodeAt_ok {p : Nat} (h : decodeAt c p bs = .ok (i, rest)) : p = position i ∧ bs = encodeOperands c i ++ rest := by
  unfold decodeAt at h
  split at h
  case h_3 => obtain ⟨w, v, rfl, hbs⟩ := decodeMask_ok h; exact ⟨rfl, hbs⟩
  case h_4 => obtain ⟨v, hi, lo, rfl, hbs⟩ := decodeSlice_ok h; exact ⟨rfl, hbs⟩
  case h_5 => obtain ⟨x, y, rfl, hbs⟩ := decodeNibpack_ok (c := c) h; exact ⟨rfl, hbs⟩
  case h_6 => obtain ⟨x, y, z, u, rfl, hbs⟩ := decodePairpack_ok (c := c) h; exact ⟨rfl, hbs⟩
  case h_27 => cases h
  all_goals cases h; exact ⟨rfl, rfl⟩

theorem decodeOp_ok (h : decodeOp c bs = .ok (i, rest)) : bs = encodeOp c i ++ rest := by
  unfold decodeOp at h
  split at h
  · cases h
  · next p tail =>
    obtain ⟨hp, htail⟩ := decodeAt_ok h
    rw [encodeOp, List.cons_append, ← htail, ← hp, BitVec.ofNat_toNat, BitVec.setWidth_eq]

theorem encode_of_decode {P : TimingParameters} (h : decode c bs = .ok (i, P)) : encode c i P = bs := by
  obtain ⟨rest, hop, hbundle⟩ := decode_parts c bs i P h
  rw [encode, decodeOp_ok hop, (decodeBundle_ok c rest [] P hbundle).1, List.append_nil]

end ReadThenWritten

/-- Settles O54: the operation's bytes are read back, and what follows them is the bundle of the record. -/
theorem decodeOfEncodeIsTheTransaction : Obligations.DecodeOfEncodeIsTheTransaction :=
  fun _ _ _ => decode_encode

/-- Settles O55: each part of a decoded word is the encoding of what was read from it, and nothing follows the bundle. -/
theorem everyAcceptedWordIsAnEncoding : Obligations.EveryAcceptedWordIsAnEncoding := by
  intro c bs i P h
  obtain ⟨hi, hP⟩ := decode_wf c bs i P h
  exact ⟨hi, hP, encode_of_decode h⟩

/-- Settles O53: each word is a literal that the decoder evaluates. -/
theorem referenceBundleDecodes : Obligations.ReferenceBundleDecodes :=
  ⟨by decide, by decide, fun _ => rfl, fun _ => rfl⟩

end Sys2Proof
end

section
/-!
SUPPORT. What an operation can do to the state, said once: its outputs, one case for each kind of operation, and everything it
leaves unchanged (spec/10_state.md R20, R49).
-/

namespace Sys2Proof.Machine

/-- The states the operations answer from `s`. The lane operations, LANE0 to LANE17_GEN, are one case (R61, R183). -/
inductive Effect (s : State) : Instr → State → Prop where
  | encode : Effect s .encode ((s.setLanes (descriptor s.cfg s.ports)).setOor (oorOf s.cfg s.ports))
  | pcq : Effect s .pcq (((s.setQ (pcqCount s.ports.pixelClockHz)).setLane 0 (descriptor s.cfg s.ports)[0]).setLane 1
      (descriptor s.cfg s.ports)[1])
  | mask (w : MaskWidth) (v : Nat) : Effect s (.mask w v) (s.setMask ⟨widthOf w, mask (widthOf w) v⟩)
  | slice (v hi lo : Nat) : Effect s (.slice v hi lo) (s.setSlice ⟨hi - lo + 1, slice v hi lo⟩)
  | nibpack (h l : Nibble) : Effect s (.nibpack h l) (s.setNib (nibpack h l))
  | pairpack (a b c d : Pair) : Effect s (.pairpack a b c d) (s.setPair (pairpack a b c d))
  | lane {i : Instr} {l : Fin 18} (h : laneOf i = some l) :
      Effect s i (s.setLane l.val (descriptor s.cfg s.ports)[l] l.isLt)
  | validate : Effect s .validate (s.setOor (oorOf s.cfg s.ports))

section Effects

variable {i : Instr} {s t : State}

theorem effect_of_exec (h : exec i s = .next t) : Effect s i t := by
  cases i
  case encode => cases h; exact .encode
  case pcq => cases h; exact .pcq
  case mask w v => cases h; exact .mask w v
  case slice v hi lo =>
    by_cases hlo : lo ≤ hi
    case pos =>
      cases (execSlice_eq v hi lo s hlo).symm.trans h
      exact .slice v hi lo
    case neg => cases (execSlice_refused v hi lo s (Nat.lt_of_not_le hlo)).symm.trans h
  case nibpack x y => cases h; exact .nibpack x y
  case pairpack a b c d => cases h; exact .pairpack a b c d
  case validate => cases h; exact .validate
  all_goals
    cases (exec_laneOf _ s _ rfl).symm.trans h
    exact .lane rfl

/-- The lane an operation forms is the one lane it drives. -/
theorem drives_of_laneOf {l : Fin 18} (h : laneOf i = some l) (k : Fin 18) : drives i k = decide (l = k) := by
  cases i
  case encode | pcq | mask | slice | nibpack | pairpack | validate => cases h
  all_goals simp [drives, h]

/-- A lane outside those the operation drives is unchanged. -/
theorem Effect.lanes_eq (h : Effect s i t) (k : Fin 18) (hk : drives i k = false) : t.lanes[k] = s.lanes[k] := by
  cases h
  case encode => cases hk
  case pcq =>
    have hne : 1 < k.val := by simpa [drives] using hk
    exact (State.setLane_lane_other _ 1 k.val _ _ k.isLt (by omega)).trans
      (State.setLane_lane_other _ 0 k.val _ _ k.isLt (by omega))
  case lane l hl =>
    have hne : l ≠ k := by simpa [drives_of_laneOf hl] using hk
    exact State.setLane_lane_other s l.val k.val _ l.isLt k.isLt (Fin.val_ne_of_ne hne)
  all_goals rfl

theorem Effect.oor_eq (h : Effect s i t) (he : i ≠ .encode) (hv : i ≠ .validate) : t.oor = s.oor := by
  cases h
  case encode => exact absurd rfl he
  case validate => exact absurd rfl hv
  all_goals rfl

theorem Effect.qNet_eq (h : Effect s i t) (hi : i ≠ .pcq) : t.qNet = s.qNet := by
  cases h
  case pcq => exact absurd rfl hi
  all_goals simp

theorem Effect.maskNet_eq (h : Effect s i t) (hi : ∀ w v, i ≠ .mask w v) : t.maskNet = s.maskNet := by
  cases h
  case mask w v => exact absurd rfl (hi w v)
  all_goals simp

theorem Effect.sliceNet_eq (h : Effect s i t) (hi : ∀ v high low, i ≠ .slice v high low) : t.sliceNet = s.sliceNet := by
  cases h
  case slice v high low => exact absurd rfl (hi v high low)
  all_goals simp

theorem Effect.nibNet_eq (h : Effect s i t) (hi : ∀ x y, i ≠ .nibpack x y) : t.nibNet = s.nibNet := by
  cases h
  case nibpack x y => exact absurd rfl (hi x y)
  all_goals simp

theorem Effect.pairNet_eq (h : Effect s i t) (hi : ∀ a b c d, i ≠ .pairpack a b c d) : t.pairNet = s.pairNet := by
  cases h
  case pairpack a b c d => exact absurd rfl (hi a b c d)
  all_goals simp

end Effects

/-- Settles O48: each output is driven by the cases of its own operations only. -/
theorem operationsChangeOnlyTheirOutputs : Obligations.OperationsChangeOnlyTheirOutputs := by
  intro i s t h
  have hd := effect_of_exec h
  exact ⟨exec_frame i s t h, hd.lanes_eq, hd.oor_eq, hd.qNet_eq, hd.maskNet_eq, hd.sliceNet_eq, hd.nibNet_eq, hd.pairNet_eq⟩

/-- Settles O26: the meaning of SLICE where its bounds are out of order. -/
theorem sliceOutOfOrderIsRefused : Obligations.SliceOutOfOrderIsRefused := execSlice_refused

/-- Settles O38: both rows drive lane 17 of ENCODE, whose byte follows the mode. -/
theorem bothFlagsRowsFollowTheMode : Obligations.BothFlagsRowsFollowTheMode := by
  refine fun s => ⟨lane17Byte s.cfg s.ports, exec_lane_of_byte .lane17 s 17 rfl rfl,
    exec_lane_of_byte .lane17Gen s 17 rfl rfl, ?_⟩
  rw [lane17Byte, low8_eq_ofNat_mod]
  rfl

/-- Settles O39: the report is the last update ENCODE makes. -/
theorem encodeDrivesTheReportToo : Obligations.EncodeDrivesTheReportToo :=
  fun s => ⟨_, exec_encode s, rfl⟩

/-- Settles O43: where the port is absent VALIDATE settles no report, and a read of it is a fault. -/
theorem withoutValidateNothingIsReported : Obligations.WithoutValidateNothingIsReported := by
  refine fun s hv => ⟨?_, State.readOor_absent s hv⟩
  rw [exec, execValidate, State.setOor, hv]
  rfl

/-- Settles O44: ENCODE's lanes are those of the descriptor, which reads neither the parameter nor the report, and VALIDATE
drives no lane. -/
theorem validateNeverChangesTheDescriptor : Obligations.ValidateNeverChangesTheDescriptor := by
  intro s v o
  have hdescriptor : descriptor { s.cfg with validate := v } s.ports = descriptor s.cfg s.ports := rfl
  refine ⟨_, _, exec_encode s, exec_encode _, ?parameter, fun k => by simp, _, rfl, ?operation⟩
  case parameter => rw [State.setOor_lanes, State.setLanes_lanes, State.setOor_lanes, State.setLanes_lanes, hdescriptor]
  case operation => exact State.setOor_lanes _ _

section LaneOperations

/-- `t` differs from `s` in the lanes that the list names at most, and has ENCODE's byte in each of those. -/
structure DrivesNamed (is : List Instr) (s t : State) : Prop where
  named : ∀ k : Fin 18, (∃ i ∈ is, laneOf i = some k) → t.lanes[k] = some (descriptor s.cfg s.ports)[k]
  other : ∀ k : Fin 18, (∀ i ∈ is, laneOf i ≠ some k) → t.lanes[k] = s.lanes[k]
  frame : t = { s with lanes := t.lanes }

/-- One more lane operation in front: its lane is named now, and a later operation on it gives the same byte again. -/
theorem DrivesNamed.cons {i : Instr} {is : List Instr} {s t : State} {l : Fin 18} (hl : laneOf i = some l)
    (h : DrivesNamed is (s.setLane l.val (descriptor s.cfg s.ports)[l] l.isLt) t) : DrivesNamed (i :: is) s t := by
  obtain ⟨hnamed, hother, hframe⟩ := h
  refine ⟨fun k hk => ?named, fun k hk => ?other, hframe⟩
  case named =>
    by_cases hlater : ∃ j ∈ is, laneOf j = some k
    case pos => exact hnamed k hlater
    case neg =>
      have hkl : l = k := by simpa [hlater, hl] using hk
      subst hkl
      rw [hother l fun j hj hjl => hlater ⟨j, hj, hjl⟩]
      exact State.setLane_lane_same s l.val _ l.isLt
  case other =>
    obtain ⟨hi, his⟩ := List.forall_mem_cons.mp hk
    have hne : l ≠ k := fun hlk => hi (hlk ▸ hl)
    rw [hother k his]
    exact State.setLane_lane_other s l.val k.val _ l.isLt k.isLt (Fin.val_ne_of_ne hne)

theorem execAll_cons {i : Instr} {is : List Instr} {s u : State} (h : exec i s = .next u) :
    execAll (i :: is) s = execAll is u := by
  rw [execAll, h]

theorem execAll_lane_operations (is : List Instr) (s : State) (his : ∀ i ∈ is, laneOf i ≠ none) :
    ∃ t, execAll is s = .next t ∧ DrivesNamed is s t := by
  induction is generalizing s with
  | nil => exact ⟨s, rfl, by simp, fun _ _ => rfl, rfl⟩
  | cons i is ih =>
    obtain ⟨hi, htail⟩ := List.forall_mem_cons.mp his
    obtain ⟨l, hl⟩ := Option.ne_none_iff_exists'.mp hi
    obtain ⟨t, ht, hnamed⟩ := ih (s.setLane l.val (descriptor s.cfg s.ports)[l] l.isLt) htail
    exact ⟨t, (execAll_cons (exec_laneOf i s l hl)).trans ht, hnamed.cons hl⟩

/-- Where every lane is named the lanes are those of ENCODE. -/
theorem DrivesNamed.lanes_eq_ofFn {is : List Instr} {s t : State} (h : DrivesNamed is s t)
    (hall : ∀ k : Fin 18, ∃ i ∈ is, laneOf i = some k) :
    t.lanes = Vector.ofFn fun k => some (descriptor s.cfg s.ports)[k] := by
  apply Vector.ext
  intro k hk
  rw [Vector.getElem_ofFn]
  exact h.named ⟨k, hk⟩ (hall ⟨k, hk⟩)

end LaneOperations

/-- Settles O41, by induction on the list of operations: each of them drives its own lane from the ports, which none of them
changes. -/
theorem laneOperationsComposeToEncode : Obligations.LaneOperationsComposeToEncode := by
  intro is s his
  obtain ⟨t, ht, hd⟩ := execAll_lane_operations is s his
  refine ⟨t, ht, fun k => ⟨hd.named k, hd.other k⟩, hd.frame, fun hall => ⟨_, exec_encode s, ?_⟩⟩
  rw [hd.lanes_eq_ofFn hall, State.setOor_lanes, State.setLanes_lanes]

end Sys2Proof.Machine
end

section
/-!
SUPPORT. Steps and runs: what a step that accepts a record does, and what is read after it (spec/10_state.md R29 to R31,
spec/20_memory.md R50).
-/

namespace Sys2Proof.Machine

section AcceptedRecord

variable {s : State} {P : TimingParameters} {rest : List Beat}

/-- An operation on a record that the next beat presents leaves that record at the ports, and the registers as they were. -/
theorem exec_present_frame {i : Instr} {u : State} (hu : exec i ((s.withInputs rest).present P) = .next u) :
    u.cfg = s.cfg ∧ u.ports = P ∧ u.outValidQ = s.outValidQ ∧ u.dtdQ = s.dtdQ ∧ u.oorQ = s.oorQ ∧
      u.resetSeen = s.resetSeen ∧ u.inputs = rest := by
  simpa using exec_frame i _ u hu

/-- The step of an encoded operation on a record the ports carry runs it (R60). -/
theorem step_beatOf {i : Instr} (hP : P.fits s.cfg) (hi : i.wf s.cfg) (hin : s.inputs = beatOf s.cfg i P :: rest) :
    ∃ u, exec i ((s.withInputs rest).present P) = .next u ∧ step s = .next (u.clockEdge false true) :=
  step_accepted s _ rest i P hin (fun _ => ⟨rfl, rfl⟩) (decode_encode hi hP)

/-- The same for ENCODE, whose next state is known. -/
theorem step_beatOf_encode (hP : P.fits s.cfg) (hin : s.inputs = beatOf s.cfg .encode P :: rest) :
    step s = .next (((s.withInputs rest).evaluateEncode P).clockEdge false true) :=
  step_encode s P _ rest hin (fun _ => ⟨rfl, rfl⟩) (decode_encode trivial hP)

/-- An edge leaves an observable state observable. -/
theorem State.Observable.clockEdge (h : s.Observable) (r v : Bool) : (s.clockEdge r v).Observable := by
  intro hw
  rw [State.clockEdge_resetSeen, h (by simpa using hw), Bool.true_or]

theorem State.Observable.evaluateEncode (h : s.Observable) (P : TimingParameters) : (s.evaluateEncode P).Observable := by
  simpa [State.Observable] using h

/-- By induction on the list: each record that is presented is read after its own step, and the beats after it are still to
come (R50). -/
theorem run_records (Ps : List TimingParameters) (s : State) (hobs : s.Observable) (hPs : ∀ P ∈ Ps, P.fits s.cfg)
    (hin : s.inputs = Ps.map (beatOf s.cfg .encode) ++ rest) (k : Nat) (hk : k < Ps.length) :
    ∃ t, Host.Core.run Sys2Proof.core (k + 1) s = .next t ∧ t.readDtd = .ok (descriptor s.cfg Ps[k]) ∧
      (s.cfg.validate = true → t.readOor = .ok (oorOf s.cfg Ps[k])) ∧
      t.inputs = (Ps.drop (k + 1)).map (beatOf s.cfg .encode) ++ rest := by
  induction Ps generalizing s k with
  | nil => cases hk
  | cons P Ps ih =>
    obtain ⟨hP, htail⟩ := List.forall_mem_cons.mp hPs
    have hstep := step_beatOf_encode (rest := Ps.map (beatOf s.cfg .encode) ++ rest) hP hin
    rw [run_succ k s _ hstep]
    have hobs' : (s.withInputs (Ps.map (beatOf s.cfg .encode) ++ rest)).Observable := hobs
    cases k with
    | zero =>
      exact ⟨_, rfl, State.evaluateEncode_readDtd _ P hobs',
        fun hv => (State.evaluateEncode_readOor _ P hobs').trans (if_pos hv), by simp⟩
    | succ k =>
      have hnext := ih _ ((hobs'.evaluateEncode P).clockEdge false true) (by simpa using htail) (by simp) k
        (Nat.lt_of_succ_lt_succ hk)
      simpa using hnext

end AcceptedRecord

/-- Settles O10, by induction on the list of records. -/
theorem everyTransactionGetsItsOwnRecord : Obligations.EveryTransactionGetsItsOwnRecord :=
  fun s Ps _ hobs hPs hin => run_records Ps s hobs hPs hin

/-- Settles O50: the encoded word decodes to the operation and the record, and the step runs the one on the other. -/
theorem everyRecordIsAccepted : Obligations.EveryRecordIsAccepted := by
  intro s i P rest hP hi hin
  obtain ⟨u, hu, hstep⟩ := step_beatOf hP hi hin
  obtain ⟨-, hports, -, -, -, -, hinputs⟩ := exec_present_frame hu
  refine ⟨_, hstep, by simp [hports], by simp [hinputs], fun he hobs => ?_⟩
  subst he
  cases (exec_encode_present _ P).symm.trans hu
  exact State.evaluateEncode_readDtd (s.withInputs rest) P hobs

/-- Settles O3: the operation leaves the registers alone, and the edge after it captures the record at the ports, or, before
the first reset edge, leaves no register a value. -/
theorem everyAcceptedBeatCapturesItsRecord : Obligations.EveryAcceptedBeatCapturesItsRecord := by
  intro s b rest i P hw hin hr hv hd
  obtain ⟨u, hu, hstep⟩ := step_accepted s b rest i P hin (fun _ => ⟨hr, hv⟩) hd
  obtain ⟨hcfg, hports, -, -, hoor, hseen, -⟩ := exec_present_frame hu
  refine ⟨_, u, hstep, hu, fun hs => ?accepted, fun hs => ?preReset⟩
  case accepted =>
    rw [State.clockEdge_accept u (hcfg ▸ hw) (hseen.trans hs), State.acceptEdge, hports, hoor, ← hcfg]
  case preReset =>
    rw [State.clockEdge_preReset u true (hcfg ▸ hw) (hseen.trans hs), State.preResetEdge]

/-- Settles O8: neither the word's meaning nor the outputs read the parameter WRAPPER, and after the step each machine is
observable. -/
theorem wrapperAndCoreGiveTheSameDescriptor : Obligations.WrapperAndCoreGiveTheSameDescriptor := by
  intro s w b rest rest' P hcore hcfg hseen hin hin' hr hv hd
  have hs : (s.withInputs rest).Observable := fun hw => absurd hw (by simp [hcore])
  have hw : (w.withInputs rest').Observable := fun _ => hseen
  have hdw : decode w.cfg b.word = .ok (.encode, P) := by
    rw [hcfg]
    exact hd
  refine ⟨_, _, step_encode s P b rest hin (fun _ => ⟨hr, hv⟩) hd,
    step_encode w P b rest' hin' (fun _ => ⟨hr, hv⟩) hdw, State.evaluateEncode_readDtd _ P hs, ?dtd, ?oor⟩
  case dtd =>
    rw [State.evaluateEncode_readDtd _ P hs, State.evaluateEncode_readDtd _ P hw, State.withInputs_cfg, State.withInputs_cfg,
      hcfg]
    rfl
  case oor =>
    rw [State.evaluateEncode_readOor _ P hs, State.evaluateEncode_readOor _ P hw, State.withInputs_cfg, State.withInputs_cfg,
      hcfg]
    rfl

/-- Settles O49: in the core there is no edge to take. -/
theorem stepRunsTheDecodedOperation : Obligations.StepRunsTheDecodedOperation := by
  intro s b rest i P hin hpins hd
  obtain ⟨t, ht, hstep⟩ := step_accepted s b rest i P hin hpins hd
  refine ⟨t, ht, hstep, fun hcore => ?_⟩
  have hcfg := (exec_present_frame ht).1
  rw [hstep, State.clockEdge_core t _ _ (hcfg ▸ hcore)]

/-- Settles O52: the step is an edge with `rst` = 0 and `in_valid` = 0. -/
theorem idleStepAcceptsNothing : Obligations.IdleStepAcceptsNothing := by
  intro s hin
  rw [step_nil s hin]
  refine ⟨fun hw => ?core, fun hw hs => ?idle, fun hw hs => ?preReset⟩
  case core => rw [State.clockEdge_core s _ _ hw]
  case idle => rw [State.clockEdge_idle s hw hs, State.idleEdge]
  case preReset => rw [State.clockEdge_preReset s _ hw hs, State.preResetEdge]

/-- Settles O51: an edge keeps the configuration, and so does the operation before it. -/
theorem noStepChangesTheConfiguration : Obligations.NoStepChangesTheConfiguration := by
  intro s t h
  obtain ⟨-, rfl⟩ | ⟨b, rest, -, -, rfl⟩ | ⟨b, rest, i, P, u, -, -, -, hu, rfl⟩ := step_cases s t h
  · exact State.clockEdge_cfg s _ _
  · exact State.clockEdge_cfg (s.withInputs rest) _ _
  · exact (State.clockEdge_cfg u _ _).trans (exec_present_frame hu).1

section Unsettled

variable {s : State}

theorem State.readLane_core_unsettled (k : Fin 18) (hw : s.cfg.wrapper = false) (h : s.lanes[k] = none) :
    s.readLane k = .error .readUnsettled := by
  simp only [State.readLane, hw, h, Bool.false_eq_true, if_false]

/-- A descriptor is read only where every lane has settled (R256). -/
theorem State.readDtd_core_unsettled (k : Fin 18) (hw : s.cfg.wrapper = false) (h : s.lanes[k] = none) :
    s.readDtd = .error .readUnsettled := by
  have hnone : s.settled = none := Option.eq_none_iff_forall_ne_some.mpr fun d hd => by
    simpa [h] using (settled_eq_some_iff s d).mp hd k
  simp [State.readDtd, hw, hnone]

theorem State.readOor_core_unsettled (hw : s.cfg.wrapper = false) (hv : s.cfg.validate = true) (h : s.oor = none) :
    s.readOor = .error .readUnsettled := by
  simp [State.readOor, hw, hv, h]

/-- A changed record takes the value of every lane and of the report (R256). -/
theorem State.present_changed_lanes (P : TimingParameters) (h : P ≠ s.ports) (k : Fin 18) :
    (s.present P).lanes[k] = none := by
  simp [State.present_changed s P h]

theorem State.present_changed_oor (P : TimingParameters) (h : P ≠ s.ports) : (s.present P).oor = none := by
  simp [State.present_changed s P h]

end Unsettled

/-- Settles O11: the record that is presented takes the value of every output, and ENCODE of it settles them all. -/
theorem changedInputsUnsettleTheOutputs : Obligations.ChangedInputsUnsettleTheOutputs := by
  intro s P hw hne
  have hcore : (s.present P).cfg.wrapper = false := by simpa using hw
  have hobs : s.Observable := fun h => absurd h (by simp [hw])
  have hlanes := State.present_changed_lanes P hne
  have hedge := State.evaluateEncode_clockEdge_core s P hw
  refine ⟨fun k => State.readLane_core_unsettled k hcore (hlanes k), State.readDtd_core_unsettled 0 hcore (hlanes 0),
    fun hv => State.readOor_core_unsettled hcore (by simpa using hv) (State.present_changed_oor P hne),
    _, exec_encode_present s P, ?dtd, fun k => ?lane, fun hv => ?oor⟩
  case dtd => exact hedge ▸ State.evaluateEncode_readDtd s P hobs
  case lane => exact hedge ▸ State.evaluateEncode_readLane s P hobs k
  case oor => exact hedge ▸ (State.evaluateEncode_readOor s P hobs).trans (if_pos hv)

end Sys2Proof.Machine
end

section
/-!
SUPPORT. The invariant of the outputs, in its two halves: the core's nets (spec/10_state.md R20, R100, R201) and the wrapper's
registers (spec/10_state.md R28, R30, spec/70 R251, R253).
-/

namespace Sys2Proof.Machine

/-- The half of `State.Consistent` about the core: what its outputs have settled to is that of the record at the ports. -/
structure State.NetsConsistent (s : State) : Prop where
  lanes : ∀ (k : Fin 18) (b : Byte), s.lanes[k] = some b → b = (descriptor s.cfg s.ports)[k]
  count : ∀ q : Count, s.qNet = some q → q = pcqCount s.ports.pixelClockHz
  report : ∀ v : OorVec, s.oor = some v → s.cfg.validate = true ∧ v = oorOf s.cfg s.ports

/-- The half of `State.Consistent` about the registers that does not read the ports. -/
structure State.RegistersConsistent (s : State) : Prop where
  observable : s.resetSeen = true → s.outValidQ ≠ none
  unspecified : s.resetSeen = false → s.outValidQ = none ∧ s.dtdQ = none ∧ s.oorQ = none
  absent : s.cfg.validate = false → s.oorQ = none
  untorn : ∀ d : Descriptor, s.dtdQ = some d → ∃ P : TimingParameters, P.fits s.cfg ∧ d = descriptor s.cfg P

section Nets

variable {s t : State}

theorem State.Consistent.nets (h : s.Consistent) : s.NetsConsistent := ⟨h.lanes, h.count, h.report⟩

/-- A record that is presented is the one at the ports, or it unsettles the nets (R256). -/
theorem State.NetsConsistent.present (h : s.NetsConsistent) (P : TimingParameters) : (s.present P).NetsConsistent := by
  by_cases hP : P = s.ports
  case pos =>
    rw [hP, State.present_same]
    exact h
  case neg =>
    rw [State.present_changed s P hP]
    exact ⟨fun k b hk => by simp at hk, nofun, nofun⟩

/-- A lane that is set to its byte of ENCODE is consistent, and no other net changes. -/
theorem State.NetsConsistent.setLane (h : s.NetsConsistent) (l : Fin 18) :
    (s.setLane l.val (descriptor s.cfg s.ports)[l] l.isLt).NetsConsistent := by
  refine ⟨fun k b hk => ?_, h.count, h.report⟩
  by_cases hlk : l = k
  case pos =>
    subst hlk
    exact (Option.some.inj ((State.setLane_lane_same s l.val _ l.isLt).symm.trans hk)).symm
  case neg =>
    exact h.lanes k b ((State.setLane_lane_other s l.val k.val _ l.isLt k.isLt (Fin.val_ne_of_ne hlk)).symm.trans hk)

theorem State.NetsConsistent.setLanes (h : s.NetsConsistent) :
    (s.setLanes (descriptor s.cfg s.ports)).NetsConsistent := by
  refine ⟨fun k b hk => ?_, by simpa using h.count, by simpa using h.report⟩
  simpa using hk.symm

theorem State.NetsConsistent.setQ (h : s.NetsConsistent) : (s.setQ (pcqCount s.ports.pixelClockHz)).NetsConsistent :=
  ⟨h.lanes, fun _ hq => (Option.some.inj hq).symm, h.report⟩

theorem State.NetsConsistent.setOor {v : OorVec} (h : s.NetsConsistent) (hv : v = oorOf s.cfg s.ports) :
    (s.setOor v).NetsConsistent := by
  refine ⟨h.lanes, h.count, fun w hw => ?_⟩
  obtain ⟨hvalidate, hreport⟩ := Option.ite_none_right_eq_some.mp hw
  exact ⟨hvalidate, (Option.some.inj hreport).symm.trans hv⟩

/-- Every operation settles its outputs to those of the record at the ports. -/
theorem State.NetsConsistent.exec {i : Instr} (h : s.NetsConsistent) (ht : exec i s = .next t) : t.NetsConsistent := by
  cases effect_of_exec ht
  case encode => exact h.setLanes.setOor (by simp)
  case pcq => exact (h.setQ.setLane 0).setLane 1
  case lane l _ => exact h.setLane l
  case validate => exact h.setOor rfl
  case mask | slice | nibpack | pairpack => exact ⟨h.lanes, h.count, h.report⟩

/-- The clock does not reach the core (R250). -/
theorem State.NetsConsistent.clockEdge (h : s.NetsConsistent) (r v : Bool) : (s.clockEdge r v).NetsConsistent := by
  obtain ⟨hlanes, hcount, hreport⟩ := h
  constructor
  · simpa using hlanes
  · simpa using hcount
  · simpa using hreport

end Nets

section Registers

variable {s t : State}

theorem State.Consistent.registers (h : s.Consistent) : s.RegistersConsistent :=
  ⟨h.observable, h.unspecified, h.absent, h.untorn⟩

/-- Only the registers and the configuration matter. -/
theorem State.RegistersConsistent.congr (h : s.RegistersConsistent) (hcfg : t.cfg = s.cfg) (hvalid : t.outValidQ = s.outValidQ)
    (hdtd : t.dtdQ = s.dtdQ) (hoor : t.oorQ = s.oorQ) (hseen : t.resetSeen = s.resetSeen) : t.RegistersConsistent := by
  obtain ⟨hobservable, hunspecified, habsent, huntorn⟩ := h
  rw [← hcfg] at habsent huntorn
  rw [← hseen, ← hvalid] at hobservable hunspecified
  rw [← hdtd] at hunspecified huntorn
  rw [← hoor] at hunspecified habsent
  exact ⟨hobservable, hunspecified, habsent, huntorn⟩

/-- Everything an edge can do (R29, R250, R251, R253). -/
theorem State.clockEdge_cases (s : State) (r v : Bool) :
    (s.cfg.wrapper = false ∧ s.clockEdge r v = s) ∨ s.clockEdge r v = s.resetEdge ∨
      (s.resetSeen = true ∧ s.clockEdge r v = s.acceptEdge) ∨ (s.resetSeen = true ∧ s.clockEdge r v = s.idleEdge) ∨
      (s.resetSeen = false ∧ s.clockEdge r v = s.preResetEdge) := by
  cases hw : s.cfg.wrapper
  case false => exact .inl ⟨rfl, State.clockEdge_core s r v hw⟩
  case true =>
    cases r
    case true => exact .inr (.inl (State.clockEdge_reset s v hw))
    case false =>
      cases hs : s.resetSeen
      case false => exact .inr (.inr (.inr (.inr ⟨rfl, State.clockEdge_preReset s v hw hs⟩)))
      case true =>
        cases v
        case true => exact .inr (.inr (.inl ⟨rfl, State.clockEdge_accept s hw hs⟩))
        case false => exact .inr (.inr (.inr (.inl ⟨rfl, State.clockEdge_idle s hw hs⟩)))

/-- An edge clears the registers, holds them, or captures the record at the ports. -/
theorem State.RegistersConsistent.clockEdge (h : s.RegistersConsistent) (hfits : s.ports.fits s.cfg) (r v : Bool) :
    (s.clockEdge r v).RegistersConsistent := by
  obtain ⟨-, he⟩ | he | ⟨hs, he⟩ | ⟨hs, he⟩ | ⟨hs, he⟩ := State.clockEdge_cases s r v
  all_goals rw [he]
  · exact h
  · exact ⟨nofun, nofun, fun _ => rfl, nofun⟩
  · refine ⟨nofun, fun hs' => absurd hs (by simpa using hs'), fun hv => ?absent, fun d hd => ⟨s.ports, hfits, ?untorn⟩⟩
    case absent =>
      rw [State.acceptEdge_oorQ, show s.cfg.validate = false from hv]
      exact h.absent hv
    case untorn => exact (Option.some.inj hd).symm
  · exact ⟨nofun, fun hs' => absurd hs (by simpa using hs'), h.absent, h.untorn⟩
  · exact ⟨fun hs' => absurd hs' (by simpa using hs), fun _ => ⟨rfl, rfl, rfl⟩, fun _ => rfl, nofun⟩

/-- After an edge with `out_valid` = 1 the registers hold ENCODE and OOR of the record at the ports: only the edge that accepts
it sets `out_valid` (R29, R30). -/
theorem State.held_clockEdge (s : State) (r v : Bool) (hw : (s.clockEdge r v).cfg.wrapper = true)
    (hvalid : (s.clockEdge r v).outValidQ = some true) :
    (s.clockEdge r v).dtdQ = some (descriptor s.cfg s.ports) ∧
      (s.cfg.validate = true → (s.clockEdge r v).oorQ = some (oorOf s.cfg s.ports)) := by
  rw [State.clockEdge_cfg] at hw
  obtain ⟨hcore, -⟩ | he | ⟨-, he⟩ | ⟨-, he⟩ | ⟨-, he⟩ := State.clockEdge_cases s r v
  case inr.inr.inl =>
    rw [he]
    exact ⟨rfl, fun hv => by rw [State.acceptEdge_oorQ, if_pos hv]⟩
  case inl => simp [hcore] at hw
  all_goals simp [he] at hvalid

end Registers

/-- An edge makes a state consistent whose nets and registers are: what is held is captured anew or not valid. -/
theorem State.consistent_clockEdge {s : State} (hnets : s.NetsConsistent) (hregisters : s.RegistersConsistent)
    (hfits : s.ports.fits s.cfg) (r v : Bool) : (s.clockEdge r v).Consistent := by
  obtain ⟨hlanes, hcount, hreport⟩ := hnets.clockEdge r v
  obtain ⟨hobservable, hunspecified, habsent, huntorn⟩ := hregisters.clockEdge hfits r v
  exact ⟨hlanes, hcount, hreport, by simpa using State.held_clockEdge s r v, hobservable, hunspecified, habsent, huntorn,
    by simpa using hfits⟩

/-- Settles O56: every step ends in an edge. Before it the nets are consistent with the ports, since a changed record unsettles
them and an operation settles them to that record, and the registers are those of the state before. -/
theorem stepKeepsTheOutputsConsistent : Obligations.StepKeepsTheOutputsConsistent := by
  intro s t hs ht
  have hnets := hs.nets
  have hregisters := hs.registers
  obtain ⟨-, rfl⟩ | ⟨b, rest, -, -, rfl⟩ | ⟨b, rest, i, P, u, -, -, hd, hu, rfl⟩ := step_cases s t ht
  case inl => exact State.consistent_clockEdge hnets hregisters hs.representable false false
  all_goals have hnets' : (s.withInputs rest).NetsConsistent := ⟨hnets.lanes, hnets.count, hnets.report⟩
  case inr.inl =>
    exact State.consistent_clockEdge hnets' (hregisters.congr rfl rfl rfl rfl rfl) hs.representable b.rst b.inValid
  case inr.inr =>
    obtain ⟨hcfg, hports, hvalid, hdtd, hoor, hseen, -⟩ := exec_present_frame hu
    have hfits : u.ports.fits u.cfg := by
      rw [hports, hcfg]
      exact (decode_wf _ _ _ _ hd).2
    exact State.consistent_clockEdge ((hnets'.present P).exec hu) (hregisters.congr hcfg hvalid hdtd hoor hseen) hfits
      false true

/-- Settles O57: no net and no data register has a value, and a record of zeros fits every port. -/
theorem resetAndPowerUpAreConsistent : Obligations.ResetAndPowerUpAreConsistent := by
  have hreset (c : Config) : (State.resetWith c).Consistent :=
    { lanes := by simp [State.resetWith]
      count := nofun
      report := nofun
      held := nofun
      observable := nofun
      unspecified := nofun
      absent := fun _ => rfl
      untorn := nofun
      representable := by simp [State.resetWith, TimingParameters.fits] }
  have hpowerUp (c : Config) : (State.powerUp c).Consistent :=
    { hreset c with
      held := nofun
      observable := nofun
      unspecified := fun _ => ⟨rfl, rfl, rfl⟩ }
  exact ⟨fun c => ⟨hreset c, hpowerUp c⟩, hreset Config.default⟩

theorem State.readOutValid_eq_ok {s : State} {v : Bool} (h : s.readOutValid = .ok v) :
    s.cfg.wrapper = true ∧ s.outValidQ = some v := by
  unfold State.readOutValid at h
  split at h
  case isTrue hw =>
    split at h
    · split at h
      · next hv => cases h; exact ⟨hw, hv⟩
      · cases h
    · cases h
  case isFalse => cases h

/-- Settles O12: that record is the one at the ports. -/
theorem readOutputsAreOneRecord : Obligations.ReadOutputsAreOneRecord := by
  intro s hs hread
  obtain ⟨hw, hvalid⟩ := State.readOutValid_eq_ok hread
  obtain ⟨hdtdQ, hoorQ⟩ := hs.held hw hvalid
  have hdtd : s.readDtd = .ok (descriptor s.cfg s.ports) := by
    rw [State.readDtd_wrapper s hw, hdtdQ, State.readHeld_of_valid s _ hread]
  refine ⟨s.ports, hs.representable, hdtd, fun k => State.readLane_of_readDtd s _ k hdtd, fun hv => ?_⟩
  rw [State.readOor_wrapper s hw, if_pos hv, hoorQ hv, State.readHeld_of_valid s _ hread]

end Sys2Proof.Machine
end

section
/-!
SUPPORT. Which bits a descriptor holds and which descriptors there are: the place of every field bit in the bit map of
spec/30_encoding.md R63, R64, the records that descriptors come from (R68), and when nothing is cut off (spec/44 R200).
-/

namespace Sys2Proof.Machine

section Places

/-- The source of bit j of a field: of `q` for the pixel clock (R62). -/
def sourceOf (f : Field) (j : Nat) : BitSource := if f = .pixelClockHz then .count j else .port f j

/-- Bit j of a field that is cut in two: below the cut from bit `low` of lane k up, from the cut on from bit `high` of lane
k' up. -/
def placeInTwo (cut : Nat) (k : Fin 18) (low : Nat) (k' : Fin 18) (high : Nat) (j : Nat) : Fin 18 × Fin 8 :=
  if j < cut then (k, Fin.ofNat 8 (low + j)) else (k', Fin.ofNat 8 (high + (j - cut)))

/-- The lane and the bit in it where bit j of a field stands, for j below the field's width: the table of R63 read backwards. -/
def placeOf (f : Field) (j : Nat) : Fin 18 × Fin 8 :=
  match f with
  | .pixelClockHz => placeInTwo 8 0 0 1 0 j
  | .horzAddrPx => placeInTwo 8 2 0 4 4 j
  | .horzBlankPx => placeInTwo 8 3 0 4 0 j
  | .vertAddrLines => placeInTwo 8 5 0 7 4 j
  | .vertBlankLines => placeInTwo 8 6 0 7 0 j
  | .horzFrontPorchPx => placeInTwo 8 8 0 11 6 j
  | .horzSyncPulsePx => placeInTwo 8 9 0 11 4 j
  | .vertFrontPorchLines => placeInTwo 4 10 4 11 2 j
  | .vertSyncPulseLines => placeInTwo 4 10 0 11 0 j
  | .horzImageMm => placeInTwo 8 12 0 14 4 j
  | .vertImageMm => placeInTwo 8 13 0 14 0 j
  | .horzBorderPx => (15, Fin.ofNat 8 j)
  | .vertBorderLines => (16, Fin.ofNat 8 j)
  | .syncFlags => (17, Fin.ofNat 8 j)

/-- What the bit map of a mode has at a field bit's place is that bit (R63), where the field is placed at all. -/
theorem bitSource_placeOf (g : Bool) (f : Field) (j : Nat) (hj : j < fieldWidth f) (hg : f = .syncFlags → g = true) :
    bitSource g (placeOf f j).1 (placeOf f j).2 = sourceOf f j := by
  cases f
  case syncFlags =>
    rw [hg rfl]
    revert j
    decide
  all_goals
    clear hg
    revert g j
    decide

/-- The source stands at its field bit's place, below the width, and is of a field that the mode places. -/
def BitSource.standsAt (g : Bool) (place : Fin 18 × Fin 8) (b : BitSource) : Bool :=
  match b with
  | .count j => decide (placeOf .pixelClockHz j = place ∧ j < 16)
  | .port f j => decide (placeOf f j = place ∧ f ≠ .pixelClockHz ∧ j < fieldWidth f ∧ (f = .syncFlags → g = true))
  | .const _ => true

/-- So do all 144 sources of the bit map, in each mode. -/
theorem bitSource_standsAt : ∀ (g : Bool) (k : Fin 18) (i : Fin 8), (bitSource g k i).standsAt g (k, i) := by decide

section Sources

variable {g : Bool} {k : Fin 18} {i : Fin 8} {j : Nat}

theorem place_of_count (h : bitSource g k i = .count j) : placeOf .pixelClockHz j = (k, i) ∧ j < 16 := by
  have hstands := bitSource_standsAt g k i
  rw [h] at hstands
  exact of_decide_eq_true hstands

theorem place_of_port {f : Field} (h : bitSource g k i = .port f j) :
    placeOf f j = (k, i) ∧ f ≠ .pixelClockHz ∧ j < fieldWidth f ∧ (f = .syncFlags → g = true) := by
  have hstands := bitSource_standsAt g k i
  rw [h] at hstands
  exact of_decide_eq_true hstands

/-- A field bit stands nowhere but at its place. -/
theorem place_of_sourceOf {f : Field} (h : bitSource g k i = sourceOf f j) : placeOf f j = (k, i) := by
  unfold sourceOf at h
  split at h
  case isTrue hf =>
    subst hf
    exact (place_of_count h).1
  case isFalse => exact (place_of_port h).1

end Sources

end Places

/-- Settles O16: a field bit stands at its place and nowhere else, and every source of the bit map is below its width. -/
theorem everyFieldBitIsPlacedExactlyOnce : Obligations.EveryFieldBitIsPlacedExactlyOnce := by
  intro g f j
  refine ⟨fun hj hg => ⟨(placeOf f j).1, (placeOf f j).2, bitSource_placeOf g f j hj hg, fun k i h => ?unique⟩,
    fun _ _ h => (place_of_port h).2, fun _ _ h => (place_of_count h).2⟩
  case unique =>
    rw [place_of_sourceOf h]
    exact ⟨rfl, rfl⟩

section Produced

variable {c : Config} (d : Descriptor)

/-- Under a legal configuration the ports can carry the record UNPACK gives: its fields have at most 12 bits, and its clock is
at most 655350000 Hz (R6, R66). -/
theorem unpack_fits (hc : c.legal) : (unpack d).fits c := by
  obtain ⟨hclock, hport⟩ := hc
  have hcount : 10000 * (unpackCount d).toNat < 2 ^ c.pclkInW :=
    Nat.lt_of_lt_of_le (by have := (unpackCount d).isLt; omega) (Nat.pow_le_pow_right (by decide) hclock)
  have hfield {w : Nat} (x : BitVec w) (hw : w ≤ 12) : x.toNat < 2 ^ c.pInW :=
    Nat.lt_of_lt_of_le x.isLt (Nat.pow_le_pow_right (by decide) (hw.trans hport))
  exact ⟨hcount, hfield _ (by decide), hfield _ (by decide), hfield _ (by decide), hfield _ (by decide),
    hfield _ (by decide), hfield _ (by decide), hfield _ (by decide), hfield _ (by decide), hfield _ (by decide),
    hfield _ (by decide), hfield _ (by decide), hfield _ (by decide), hfield _ (by decide)⟩

end Produced

/-- Settles O18: lane 17 of a produced descriptor is the constant or a free byte, by the mode, and any other descriptor is
produced from the record UNPACK gives. -/
theorem exactlyWhichDescriptorsAreProduced : Obligations.ExactlyWhichDescriptorsAreProduced := by
  intro c d hc
  constructor
  · rintro ⟨P, -, rfl⟩
    exact generalizeFlags_or_descriptor_17 c P
  · exact fun h => ⟨unpack d, unpack_fits d hc, descriptor_unpack c d h⟩

section Adder

variable {w n hz : Nat}

theorem lt_two_pow_of_lt {v m : Nat} (hv : v < 2 ^ m) (h : m ≤ n) : v < 2 ^ n :=
  Nat.lt_of_lt_of_le hv (Nat.pow_le_pow_right (by decide) h)

/-- One bit more than the port holds the carry of the sum (R103). -/
theorem add_5000_lt_two_pow (hw : 30 ≤ w) (hn : w + 1 ≤ n) (hhz : hz < 2 ^ w) : hz + 5000 < 2 ^ n := by
  have hround : 5000 < 2 ^ w := lt_two_pow_of_lt (m := 30) (by decide) hw
  exact lt_two_pow_of_lt (m := w + 1) (by rw [Nat.pow_succ]; omega) hn

/-- In n bits the sum and the quotient are those of the naturals (R103). -/
theorem bitVec_quotient (hw : 30 ≤ w) (hn : w + 1 ≤ n) (hhz : hz < 2 ^ w) :
    ((BitVec.ofNat n hz + BitVec.ofNat n 5000) / BitVec.ofNat n 10000).toNat = quotient hz := by
  have hdivisor : 10000 < 2 ^ n := lt_two_pow_of_lt (m := 30) (by decide) (by omega)
  rw [← BitVec.ofNat_add, BitVec.toNat_udiv, BitVec.toNat_ofNat, BitVec.toNat_ofNat,
    Nat.mod_eq_of_lt (add_5000_lt_two_pow hw hn hhz), Nat.mod_eq_of_lt hdivisor, quotient]

end Adder

/-- Settles O21: where nothing wraps the adder is exact, and 4294967295 + 5000 wraps in 32 bits. -/
theorem adderOfOneMoreBitIsExact : Obligations.AdderOfOneMoreBitIsExact :=
  ⟨fun _ _ _ => bitVec_quotient, by decide, by decide, fun hz _ => by omega⟩

/-- Settles O28: the descriptor is a function of the count and of the other fields modulo their widths, which no reduction to
N ≥ W bits changes; 2^32 Hz reduced to 32 bits is 0 Hz, of another count. -/
theorem descriptorIndependentOfPortWidth : Obligations.DescriptorIndependentOfPortWidth := by
  refine ⟨fun c P P' hclock hmod => descriptor_congr c (congrArg pcqCount hclock) hmod, fun c P f n v hf hn => ?reduced,
    fun _ _ _ _ => rfl, 2 ^ 32, by decide⟩
  case reduced => exact descriptor_setPort_congr c P f hf (Nat.mod_mod_of_dvd v (Nat.pow_dvd_pow 2 hn))

section Truncation

variable (c : Config) (P : TimingParameters)

/-- The report is 0 exactly where no field is out of range (R200). -/
theorem oorOf_eq_zero_iff : oorOf c P = 0 ↔ ∀ f, outOfRange c P f = false := by
  constructor
  · intro h f
    rw [← oorOf_getLsbD, h]
    exact BitVec.getLsbD_zero
  · intro h
    apply BitVec.eq_of_getLsbD_eq
    intro i hi
    have hbit : (oorOf c P).getLsbD i = _ := BitVec.getLsbD_ofBoolListLE
    rw [hbit]
    simp only [h]
    exact (List.getD_replicate false hi).trans BitVec.getLsbD_zero.symm

/-- The clock is in range exactly where the mask to 16 bits drops nothing of Q (R201). -/
theorem clock_in_range_iff :
    outOfRange c P .pixelClockHz = false ↔ (unpackCount (descriptor c P)).toNat = quotient P.pixelClockHz := by
  rw [outOfRange_pixelClockHz, unpackCount_descriptor, pcqCount_toNat, decide_eq_false_iff_not, Nat.not_le]
  exact (Nat.mod_eq_iff_lt (by decide)).symm

/-- Where the flags are placed, every other field is in range exactly where UNPACK gives it back (R201, R67). -/
theorem field_in_range_iff (hc : c.generalizeFlags = true) (f : Field) (hclock : f ≠ .pixelClockHz) :
    outOfRange c P f = false ↔ portValue (unpack (descriptor c P)) f = portValue P f := by
  obtain ⟨hrange, hmod⟩ : outOfRange c P f = decide (2 ^ fieldWidth f ≤ portValue P f) ∧
      portValue (unpack (descriptor c P)) f = portValue P f % 2 ^ fieldWidth f := by
    by_cases hflags : f = .syncFlags
    case pos =>
      subst hflags
      exact ⟨by rw [outOfRange_syncFlags, hc, Bool.true_and]; rfl, (syncFlags_unpack_descriptor c P).trans (if_pos hc)⟩
    case neg => exact ⟨outOfRange_eq_decide c P f hclock hflags, portValue_unpack_descriptor c P f hclock hflags⟩
  rw [hrange, hmod, decide_eq_false_iff_not, Nat.not_le]
  exact (Nat.mod_eq_iff_lt (Nat.two_pow_pos _).ne').symm

end Truncation

/-- Settles O46: a report of 0 says that each field is below its width, and a value is its own remainder exactly there. -/
theorem reportIsExactlyTruncation : Obligations.ReportIsExactlyTruncation := by
  intro c P hc
  rw [oorOf_eq_zero_iff, ← clock_in_range_iff]
  constructor
  · exact fun h => ⟨h .pixelClockHz, fun f hf => (field_in_range_iff c P hc f hf).mp (h f)⟩
  · rintro ⟨hclock, hfields⟩ f
    by_cases hf : f = .pixelClockHz
    case pos => exact hf ▸ hclock
    case neg => exact (field_in_range_iff c P hc f hf).mpr (hfields f hf)

end Sys2Proof.Machine
end
